-- ==== Sys2Proof/Word.lean ====
section
/-! DEFINITION. The word types of the Tindral UT-4410: what the manual itself handles as bits (bytes of a line, sets sent as a byte).
Everything the manual counts is a natural number or an integer. -/

namespace Sys2Proof

/-- One byte of a serial line (R163). -/
abbrev Byte := BitVec 8

/-- A line port, 0 to 3 (00_scope, Numbering). -/
abbrev Port := Fin 4

/-- A serial counter, 0 to 7 (R39). -/
abbrev CounterNo := Fin 8

/-- A subset of planes 0 to 3; bit k stands for plane k (R173). -/
abbrev Planes := BitVec 4

/-- A set of vector events; bit k is the event of priority k + 1 (R173, R176). -/
abbrev EventSet := BitVec 8

/-- A string of characters, each sent as one byte (R173). Characters are not checked by the part unless a rule says so. -/
abbrev Text := List Byte

end Sys2Proof
end

