-- ==== Sys2Proof/Machine/Records.lean ====
section
/-! DEFINITION. The records the blocks of the part keep: forms, counters, jobs, reports, bands, port settings, engine data. Plain data,
each with the rule of spec/ that gives its fields. -/

namespace Sys2Proof.Machine

/-! ### Form Store (chapter 1) -/

/-- The three built-in fonts (R25). -/
inductive Font | s | m | l
  deriving DecidableEq, Repr, Inhabited

/-- A box of dots: its first column and line, its size, and its border thickness, 0 for a filled box (R11, R25). -/
structure BoxShape where
  left   : Nat
  top    : Nat
  width  : Nat
  height : Nat
  border : Nat
  deriving DecidableEq, Repr, Inhabited

/-- Clockwise rotation of a field (R6, R13). -/
inductive Rotation | deg0 | deg90 | deg180 | deg270
  deriving DecidableEq, Repr, Inhabited

/-- Whether ink dots add the field's planes or remove them (R6). -/
inductive Ink | set | clear
  deriving DecidableEq, Repr, Inhabited

/-- Where a field's content comes from (R7). -/
inductive Source
  | fixed
  | job
  | contrib (port : Port)
  | counter (c : CounterNo) (digits : Nat)
  | copyIndex
  deriving DecidableEq, Repr, Inhabited

/-- A field's kind with its kind part (R9 to R12). -/
inductive KindPart
  | text (font : Font) (hscale vscale maxChars : Nat)
  | barcode (narrow wide height : Nat) (mod10 : Bool) (reduction : Nat) (readable : Bool) (boxWidth : Nat)
  | box (width height border : Nat)
  | stamp (stencil width height : Nat)
  deriving DecidableEq, Repr, Inhabited

/-- A field record (R6). The plane set and the ink are kept as the bytes sent, since a STAMP stores them unchecked (R174). -/
structure Field where
  number    : Nat
  x         : Nat
  y         : Nat
  rotation  : Rotation
  planeByte : Byte
  inkByte   : Byte
  rank      : Nat
  source    : Source
  required  : Bool
  fixedText : Text
  fallback  : Text
  part      : KindPart
  deriving DecidableEq, Repr, Inhabited

/-- A stencil (R12, R16): rows of 32 columns, column 0 the most significant bit. -/
structure Stencil where
  number : Nat
  rows   : List (BitVec 32)
  deriving DecidableEq, Repr, Inhabited

/-- What happens when a merge timeout expires (R2, R89 to R91). -/
inductive MergePolicy | fallback | hold | void
  deriving DecidableEq, Repr, Inhabited

/-- A form record (R2). Its number is its slot's; its use count is computed from the queue (R4, `State.useCount`). -/
structure Form where
  owner        : Port
  shared       : Bool
  length       : Nat
  width        : Nat
  printPlanes  : Planes
  mergeTimeout : Nat
  policy       : MergePolicy
  fields       : List Field
  stencils     : List Stencil
  deriving DecidableEq, Repr, Inhabited

/-- A form slot (R1). -/
inductive Slot
  | empty
  | defining (form : Form)
  | active (form : Form)
  deriving DecidableEq, Repr, Inhabited

/-! ### Counter Bank and Retained Area (chapter 3) -/

/-- What a draw does when the next value would leave the limits (R39). -/
inductive CounterPolicy | stop | wrap
  deriving DecidableEq, Repr, Inhabited

/-- A DEFINED counter (R39). An UNDEFINED one is `none`. -/
structure Counter where
  owner     : Port
  value     : Nat
  step      : Int
  low       : Nat
  high      : Nat
  policy    : CounterPolicy
  exhausted : Bool
  deriving DecidableEq, Repr, Inhabited

/-- The retention scope (R50, R52). -/
inductive Scope | counters | countersAndForms
  deriving DecidableEq, Repr, Inhabited

/-- The retained image less its check word (R50). -/
structure Image where
  counters : Vector (Option Counter) 8
  scope    : Scope
  forms    : Vector (Option Form) 32
  deriving DecidableEq, Repr

/-- A part of the retained image that is written as one when the image is rewritten (R50, R51; log 3). -/
inductive ImagePart
  | counter (c : CounterNo)
  | scope
  | form (i : Fin 32)
  deriving DecidableEq, Repr

/-- The retained area: the image and its check word (R50). -/
structure Retained where
  image : Image
  check : BitVec 16
  deriving DecidableEq, Repr

/-! ### Print Queue and Merge Unit (chapters 4 and 5) -/

/-- The class of a job (R55, R59). -/
inductive JobClass | normal | rush
  deriving DecidableEq, Repr, Inhabited

/-- The state of a job, which follows from its record (R56, `State.jobState`). -/
inductive JobState | opened | assembling | ready | active | draining | held
  deriving DecidableEq, Repr, Inhabited

/-- One contribution stored in a job (R55, R81). -/
structure Contribution where
  field : Nat
  port  : Port
  value : Text
  deriving DecidableEq, Repr, Inhabited

/-- A job record (R55). The state is computed (R56). `closed` says that its JOB-CLOSE has been accepted. -/
structure Job where
  number       : Nat
  origin       : Port
  key          : Option Text
  form         : Nat
  total        : Nat
  composed     : Nat
  completed    : Nat
  cls          : JobClass
  closed       : Bool
  operator     : Bool
  mergeTimeout : Bool
  counterHold  : Option CounterNo
  cancelled    : Bool
  data         : List (Nat × Text)
  contribs     : List Contribution
  timer        : Option Nat
  marks        : List Nat
  deriving DecidableEq, Repr, Inhabited

/-- An entry of the contribution pool (R83). -/
structure PoolEntry where
  key   : Text
  port  : Port
  field : Nat
  value : Text
  age   : Nat
  deriving DecidableEq, Repr, Inhabited

/-- The counter values a label holds, in counter-number order (R45). -/
abbrev Values := List (CounterNo × Nat)

/-- An entry of the redo list (R116). -/
structure RedoEntry where
  job    : Nat
  copy   : Nat
  values : Values
  deriving DecidableEq, Repr, Inhabited

/-- The label record of a label in flight that is not on the redo list (R99). -/
structure LabelRecord where
  job          : Nat
  copy         : Nat
  values       : Values
  truncations  : Nat
  symbolErrors : Nat
  masked       : Nat
  fallbacks    : Nat
  pauses       : Nat
  deriving DecidableEq, Repr, Inhabited

/-- How a label ended (R75, R154). -/
inductive LabelOutcome | printed | voided | faulted | spoiled | dry | mergeVoid
  deriving DecidableEq, Repr, Inhabited

/-- A completion report (R75). -/
structure Completion where
  job          : Nat
  origin       : Port
  key          : Option Text
  form         : Nat
  copy         : Nat
  total        : Nat
  outcome      : LabelOutcome
  values       : Values
  pauses       : Nat
  masked       : Nat
  fallbacks    : Nat
  truncations  : Nat
  symbolErrors : Nat
  mismatch     : Bool
  deriving DecidableEq, Repr, Inhabited

/-- A band report of dry run (R157). -/
structure BandReport where
  job    : Nat
  copy   : Nat
  band   : Nat
  burned : Nat
  check  : BitVec 16
  deriving DecidableEq, Repr, Inhabited

/-- A report on a port's list (R179). -/
inductive Report
  | completion (c : Completion)
  | band (b : BandReport)
  deriving DecidableEq, Repr, Inhabited

/-! ### Band Ring and composer (chapter 6) -/

/-- One dot of a band (R96). -/
structure Cell where
  planes : Planes
  rank   : Nat
  deriving DecidableEq, Repr, Inhabited

/-- A band record (R96). -/
structure BandRecord where
  job   : Nat
  copy  : Nat
  band  : Nat
  first : Nat
  count : Nat
  last  : Bool
  void  : Bool
  check : BitVec 16
  deriving DecidableEq, Repr, Inhabited

/-- The state of a band buffer (R96). -/
inductive BufferState | free | filling | full | burning
  deriving DecidableEq, Repr, Inhabited

/-- A band buffer (R96): its state, its band record (none when empty) and its dots, line by line (empty until a fill completes). -/
structure Buffer where
  state  : BufferState
  record : Option BandRecord
  cells  : List (List Cell)
  deriving DecidableEq, Repr, Inhabited

/-- The ring of eight buffers with its two positions (R96, R98). -/
structure Ring where
  buffers : Vector Buffer 8
  fill    : Fin 8
  take    : Fin 8
  deriving DecidableEq, Repr

/-- What the label snapshot keeps of one port: its plane mask and stamp planes (R100). -/
structure PortPlanes where
  mask  : Planes
  stamp : Planes
  deriving DecidableEq, Repr, Inhabited

/-- The label the composer has in hand (R100 to R103): its snapshot and the index of the next band to take a buffer for. -/
structure Hand where
  job      : Nat
  copy     : Nat
  snapshot : Vector PortPlanes 4
  nextBand : Nat
  deriving DecidableEq, Repr

/-! ### Line ports (chapters 10 and 11) -/

/-- A frame that has passed its checks: its kind and its body (R164, R165). -/
structure Frame where
  kind : Byte
  body : List Byte
  deriving DecidableEq, Repr, Inhabited

/-- The six states of a frame assembler (R165). -/
inductive AssemblerState | hunt | kind | lengthHigh | lengthLow | body | check
  deriving DecidableEq, Repr, Inhabited

/-- A frame assembler (R165): its state, what it has kept of the frame in assembly, how many bytes of it the buffer holds, and the
overrun mark (R167). -/
structure Assembler where
  state      : AssemblerState
  kind       : Byte
  lengthHigh : Byte
  lengthLow  : Byte
  body       : List Byte
  held       : Nat
  overrun    : Bool
  deriving DecidableEq, Repr, Inhabited

/-- What a port puts on its transmit line: a reply frame (its kind byte with bit 7 set, and its body) or an attention byte (R169). -/
inductive Sent
  | reply (kind : Byte) (body : List Byte)
  | attention
  deriving DecidableEq, Repr, Inhabited

/-- The sequence mode of a port (R66, R172). -/
inductive SequenceMode | strict | free
  deriving DecidableEq, Repr, Inhabited

/-- The combine setting (R172, R181). -/
inductive Combine | and | or | nand | nor
  deriving DecidableEq, Repr, Inhabited

/-- A watch filter (R172, R181): a pattern of five characters and a care mask; bit k of the mask cares for key position k. -/
structure Filter where
  pattern : Text
  care    : BitVec 5
  deriving DecidableEq, Repr, Inhabited

/-- The settings of a port (R172). -/
structure PortSettings where
  planeMask   : Planes
  stampPlanes : Planes
  sequence    : SequenceMode
  attention   : EventSet
  watch       : Bool
  filter1     : Filter
  filter2     : Filter
  combine     : Combine
  deriving DecidableEq, Repr, Inhabited

/-- An armed position watch (R182). -/
structure PositionWatch where
  job  : Nat
  copy : Nat
  line : Nat
  deriving DecidableEq, Repr, Inhabited

/-- Everything a line port holds (R163). `sent` is what the port has put on its transmit line since power-up, oldest first. -/
structure PortState where
  assembler    : Assembler
  frames       : List Frame
  cts          : Bool
  discard      : Bool
  settings     : PortSettings
  pending      : EventSet
  armHeld      : Bool
  armExhausted : Bool
  reports      : List Report
  displaced    : Bool
  watch        : Option PositionWatch
  sent         : List Sent
  deriving DecidableEq, Repr, Inhabited

/-! ### Print Engine (chapters 7, 8, 9 and 12) -/

/-- The head profile (R183). -/
structure HeadProfile where
  dots      : Nat
  groups    : Nat
  sensor    : Nat
  peel      : Nat
  threshold : Nat
  deriving DecidableEq, Repr, Inhabited

/-- The order in which strobe groups fire (R128, R184). -/
inductive FireOrder | sequential | interleaved
  deriving DecidableEq, Repr, Inhabited

/-- How labels are presented (R147, R148, R184). -/
inductive PresentMode | tear | peel
  deriving DecidableEq, Repr, Inhabited

/-- What an underrun does (R143, R144, R184). -/
inductive UnderrunPolicy | pause | redo
  deriving DecidableEq, Repr, Inhabited

/-- The run settings (R184). -/
structure RunSettings where
  darkness  : Nat
  speed     : Nat
  fireOrder : FireOrder
  budget    : Nat
  weightB   : Nat
  weightC   : Nat
  weightD   : Nat
  nOn       : Nat
  nOff      : Nat
  gapLimit  : Nat
  tolerance : Nat
  topOffset : Int
  present   : PresentMode
  underrun  : UnderrunPolicy
  deriving DecidableEq, Repr, Inhabited

/-- The nine engine states (R135). -/
inductive EngineMode | unset | stopped | registering | burning | paused | presenting | retracting | dry | fault
  deriving DecidableEq, Repr, Inhabited

/-- The fault set (R150). -/
structure FaultSet where
  headOpen  : Bool
  overheat  : Bool
  supplyLow : Bool
  mediaOut  : Bool
  noGap     : Bool
  deriving DecidableEq, Repr, Inhabited

/-- A record of the edge list (R139). -/
structure Edge where
  pos    : Int
  length : Option Int
  deriving DecidableEq, Repr, Inhabited

/-- A label at the head (R72, R142): where it starts, the edge it is tied to, how many of its lines are done, whether all its lines
are burned and it is being carried out or presented, and whether an underrun has spoiled it. -/
structure HeadLabel where
  job     : Nat
  copy    : Nat
  start   : Int
  length  : Nat
  edge    : Option Int
  done    : Nat
  out     : Bool
  spoiled : Bool
  deriving DecidableEq, Repr, Inhabited

/-- The four class times of a line (R121, R124). -/
structure ClassTimes where
  a : Nat
  b : Nat
  c : Nat
  d : Nat
  deriving DecidableEq, Repr, Inhabited

/-- The class of a burning dot (R125). -/
inductive DotClass | a | b | c | d
  deriving DecidableEq, Repr, Inhabited

/-- One strobe phase of a line's plan (R127, R129). -/
structure Phase where
  group : Nat
  dots  : List Nat
  time  : Nat
  deriving DecidableEq, Repr, Inhabited

/-- The strobe lines within a burned line: a phase's strobe is on, the gap after a phase, or off (R129). -/
inductive Strobe | off | on | gap
  deriving DecidableEq, Repr, Inhabited

/-- What a burned line fixes at its start: the dot data and the class times (R121, R129). -/
structure Burn where
  bits  : List Bool
  times : ClassTimes
  deriving DecidableEq, Repr, Inhabited

/-- The forward line in progress (R129 to R134). `burn` is none for a line fed unburned; `phases` are the phases not yet ended, the
first of them on or next to fire. -/
structure Line where
  period   : Nat
  required : Nat
  burn     : Option Burn
  phases   : List Phase
  strobe   : Strobe
  enabled  : List Nat
  deriving DecidableEq, Repr, Inhabited

/-- What the moving engine is feeding for (R141, R142, R147, R148, R153). -/
inductive Task
  | idle
  | seek
  | approach (start : Int) (edge : Int)
  | lines
  | carry (target : Int)
  | feedFirst
  | feedSecond (edge : Int)
  | feedTo (target : Int)
  deriving DecidableEq, Repr, Inhabited

/-- The Print Engine's state (R118, R135, R137 to R141, R148 to R150, R156, R161). `prevPeriod` none is standstill. -/
structure Engine where
  mode        : EngineMode
  faults      : FaultSet
  hp          : Int
  mark        : Int
  gap         : Bool
  gapRun      : Nat
  labelRun    : Nat
  gapLength   : Nat
  edges       : List Edge
  registered  : Bool
  temperature : Int
  voltage     : Nat
  hot         : Bool
  history1    : List Bool
  history2    : List Bool
  prevPeriod  : Option Nat
  line        : Option Line
  heads       : List HeadLabel
  task        : Task
  feedCount   : Nat
  absent      : Nat
  backLeft    : Nat
  backPeriod  : Nat
  dryLine     : Option Nat
  leavingDry  : Bool
  deriving DecidableEq, Repr, Inhabited

end Sys2Proof.Machine
end

