-- ==== Sys2Proof/Config.lean ====
section
/-! DEFINITION. What one implementation fixes and the manual does not state, and the free values. Every constant here is opaque: no
proof can see it, so a claim holds whatever it is. -/

namespace Sys2Proof.Config

open Sys2Proof.Machine

/-- The character ROM: whether dot (column, line) of a printable character's glyph is ink. DESIGN CHOICE (log 1): the manual does not
list the glyph shapes (R25). `glyphInk` reads it. -/
opaque glyph : Font → Byte → Nat → Nat → Bool

/-- The box a font's substitute glyph draws (R25), before it is brought into the font's cell. DESIGN CHOICE (log 1): the manual says only
that it is a box shape. `Font.substituteBox` reads it. -/
opaque substitute : Font → BoxShape

/-- The bytes of the retained image in the part's memory. DESIGN CHOICE (log 2): the arrangement is not given (R50). -/
opaque retainedBytes : Image → List Byte

/-- Whether a part of the retained image was already written when the device reset cut the rewrite (R51), for each such cut. DESIGN CHOICE
(log 3). -/
opaque partWritten : Nat → ImagePart → Bool

/-- What the frame assembler takes for a length byte lost at a full buffer (R167). DESIGN CHOICE (log 12): the manual says only that the
frame is then discarded for its length, for its timeout or at its check byte. -/
opaque lostByte : Nat → Byte

/-- Whether a fault raised in the same step as a cause of the engine is taken first (R136, R154). DESIGN CHOICE (log 4). -/
opaque faultFirst : Nat → Bool

/-- Whether one reading's clearing of a fault is taken before its raising of another (R152). DESIGN CHOICE (log 4). -/
opaque clearFirst : Nat → Bool

/-- Whether in DRY the take position moves on when a band is taken (R98) or when it is done with (R156). DESIGN CHOICE (log 19): the two
rules name different moments. -/
opaque dryMovesAtTaking : Bool

end Sys2Proof.Config
end

