-- ==== Sys2Proof/Machine/Bytes.lean ====
section
/-! DEFINITION. Packing of numbers into bytes (R173), reading them back from a record body, the frame check sum (R164), the retained
check word (R50), and the roundings of the manual's arithmetic (00_scope, Arithmetic). -/

namespace Sys2Proof.Machine

/-- A number in one byte. -/
def byte1 (n : Nat) : List Byte := [BitVec.ofNat 8 n]

/-- A number in two bytes, most significant first (R173). -/
def byte2 (n : Nat) : List Byte := [BitVec.ofNat 8 (n / 256), BitVec.ofNat 8 n]

/-- A number in four bytes, most significant first (R173). -/
def byte4 (n : Nat) : List Byte :=
  [BitVec.ofNat 8 (n / 16777216), BitVec.ofNat 8 (n / 65536), BitVec.ofNat 8 (n / 256), BitVec.ofNat 8 n]

/-- A signed number in one byte, two's complement (R173). -/
def signed1 (n : Int) : List Byte := [BitVec.ofInt 8 n]

/-- A signed number in two bytes, two's complement (R173). -/
def signed2 (n : Int) : List Byte := byte2 (BitVec.ofInt 16 n).toNat

/-- A flag in one byte (R173). -/
def flag1 (b : Bool) : List Byte := if b then [1#8] else [0#8]

/-- A string: its length in one byte, then its characters (R173). -/
def packText (t : Text) : List Byte := byte1 t.length ++ t

/-- A list: its count in one byte, then its entries (R173). -/
def packList {α : Type} (f : α → List Byte) (l : List α) : List Byte := byte1 l.length ++ l.flatMap f

/-- The byte at an offset of a body, as a number; 0 beyond the end. -/
def natAt (b : List Byte) (i : Nat) : Nat := (b.getD i 0).toNat

/-- The two bytes at an offset, most significant first. -/
def nat2At (b : List Byte) (i : Nat) : Nat := natAt b i * 256 + natAt b (i + 1)

/-- The four bytes at an offset, most significant first. -/
def nat4At (b : List Byte) (i : Nat) : Nat := nat2At b i * 65536 + nat2At b (i + 2)

/-- The byte at an offset as a signed number. -/
def int1At (b : List Byte) (i : Nat) : Int := (BitVec.ofNat 8 (natAt b i)).toInt

/-- The two bytes at an offset as a signed number. -/
def int2At (b : List Byte) (i : Nat) : Int := (BitVec.ofNat 16 (nat2At b i)).toInt

/-- `n` bytes of a body from an offset. -/
def sliceAt (b : List Byte) (i n : Nat) : List Byte := (b.drop i).take n

/-- The sum of bytes, each counted 0 to 255. -/
def byteSum (l : List Byte) : Nat := (l.map BitVec.toNat).sum

/-- The check byte that makes kind, length, body and check byte sum to 0 mod 256 (R164). -/
def frameCheck (kind : Byte) (body : List Byte) : Byte :=
  BitVec.ofNat 8 (256 - (byteSum (kind :: byte2 body.length ++ body)) % 256)

/-- The bytes of a frame on the line (R164). -/
def frameBytes (kind : Byte) (body : List Byte) : List Byte :=
  [0x01#8, kind] ++ byte2 body.length ++ body ++ [frameCheck kind body]

/-- The bytes of what a port sends (R164, R169). -/
def Sent.bytes : Sent → List Byte
  | .reply kind body => frameBytes kind body
  | .attention => [0x05#8]

/-- How many bytes a complete frame takes in the receive buffer (R164, R167). -/
def Frame.size (f : Frame) : Nat := f.body.length + 5

/-- The check word of a retained image: the sum of its bytes modulo 65,536 (R50). -/
def Image.checkWord (i : Image) : BitVec 16 := BitVec.ofNat 16 (byteSum (Config.retainedBytes i))

/-- An image with its matching check word (R51). -/
def Image.sealed (i : Image) : Retained := { image := i, check := i.checkWord }

/-- Whether a retained area's check word agrees with its image (R53). -/
def Retained.sound (r : Retained) : Bool := r.check == r.image.checkWord

/-- Round half up of a quotient of naturals (00_scope, Arithmetic). -/
def roundDiv (a b : Nat) : Nat := (2 * a + b) / (2 * b)

/-- A quotient rounded up (00_scope, Arithmetic). -/
def ceilDiv (a b : Nat) : Nat := (a + b - 1) / b

/-- A value clamped to a range (00_scope, Arithmetic). -/
def clampInt (lo hi v : Int) : Int := max lo (min hi v)

/-- A function applied to every entry of a vector. -/
def mapVec {α β : Type} {n : Nat} (f : α → β) (v : Vector α n) : Vector β n := ⟨⟨v.toList.map f⟩, by simp⟩

end Sys2Proof.Machine
end

