-- ==== Sys2Proof/Syntax.lean ====
section
/-! DEFINITION. The commands of the block: one constructor per row of spec/opcode_table.json, in the table's order. A record command
names the port that takes the record and carries the frame's body as it came on the line (R169, R170); an event carries what the
outside world delivers with it. -/

namespace Sys2Proof

/-- The commands (spec/opcode_table.json). -/
inductive Instr
  /-- HEAD-PROFILE record (R183). -/
  | headProfile (port : Port) (body : List Byte)
  /-- RUN-SETTINGS record (R184). -/
  | runSettings (port : Port) (body : List Byte)
  /-- RETAIN-SCOPE record (R52). -/
  | retainScope (port : Port) (body : List Byte)
  /-- PORT-SETTINGS record (R172). -/
  | portSettings (port : Port) (body : List Byte)
  /-- FORM-BEGIN record (R14). -/
  | formBegin (port : Port) (body : List Byte)
  /-- FIELD-DEF record (R15). -/
  | fieldDef (port : Port) (body : List Byte)
  /-- STENCIL-DEF record (R16). -/
  | stencilDef (port : Port) (body : List Byte)
  /-- FORM-END record (R17). -/
  | formEnd (port : Port) (body : List Byte)
  /-- FORM-DELETE record (R18). -/
  | formDelete (port : Port) (body : List Byte)
  /-- FORM-QUERY record (R19). -/
  | formQuery (port : Port) (body : List Byte)
  /-- COUNTER-SET record (R40). -/
  | counterSet (port : Port) (body : List Byte)
  /-- COUNTER-FREE record (R42). -/
  | counterFree (port : Port) (body : List Byte)
  /-- COUNTER-QUERY record (R43). -/
  | counterQuery (port : Port) (body : List Byte)
  /-- JOB-OPEN record (R58). -/
  | jobOpen (port : Port) (body : List Byte)
  /-- FIELD-DATA record (R61). -/
  | fieldData (port : Port) (body : List Byte)
  /-- JOB-CLOSE record (R62). -/
  | jobClose (port : Port) (body : List Byte)
  /-- DISCARD record (R63). -/
  | discard (port : Port) (body : List Byte)
  /-- JOB-HOLD record (R68). -/
  | jobHold (port : Port) (body : List Byte)
  /-- JOB-RELEASE record (R69). -/
  | jobRelease (port : Port) (body : List Byte)
  /-- JOB-CANCEL record (R71). -/
  | jobCancel (port : Port) (body : List Byte)
  /-- JOB-QUERY record (R77). -/
  | jobQuery (port : Port) (body : List Byte)
  /-- CONTRIBUTE record (R80). -/
  | contribute (port : Port) (body : List Byte)
  /-- FEED record (R153). -/
  | feed (port : Port) (body : List Byte)
  /-- DRY-RUN-ON record (R155). -/
  | dryRunOn (port : Port) (body : List Byte)
  /-- DRY-RUN-OFF record (R161). -/
  | dryRunOff (port : Port) (body : List Byte)
  /-- ENGINE-QUERY record (R185). -/
  | engineQuery (port : Port) (body : List Byte)
  /-- VECTOR-QUERY record (R178). -/
  | vectorQuery (port : Port) (body : List Byte)
  /-- REPORT-READ record (R180). -/
  | reportRead (port : Port) (body : List Byte)
  /-- POSITION-WATCH record (R182). -/
  | positionWatch (port : Port) (body : List Byte)
  /-- PORT-RESET record (R168). -/
  | portReset (port : Port) (body : List Byte)
  /-- A record of a kind byte that is no record kind (R170). -/
  | unknownKind (port : Port) (kind : Byte) (body : List Byte)
  /-- A received character, with its framing-error mark (R163, R165). -/
  | receiveByte (port : Port) (char : Byte) (framingError : Bool)
  /-- 50 ms without a byte of the frame in assembly (R166). -/
  | frameTimeout (port : Port)
  /-- The receive line held at space for 250 ms (R168). -/
  | lineBreak (port : Port)
  /-- The device reset input is asserted; says whether it comes while the first waiting command rewrites the retained image (R51, R186). -/
  | deviceResetAssert (rewriteCut : Bool)
  /-- The device reset input is released; carries the backup-low input and the lid switch as read then (R53, R186). -/
  | powerUp (backupLow lidOpen : Bool)
  /-- A reading of the sensor monitor: degrees Celsius and tenths of a volt (R119). -/
  | sensorReading (temperature : Int) (voltage : Nat)
  /-- The lid switch reports open (R150). -/
  | lidSwitchOpen
  /-- The lid switch reports closed (R150). -/
  | lidSwitchClosed
  /-- The composer asks the Print Queue for a label (R65, R99). -/
  | composerAsk
  /-- The composer takes the buffer at the fill position (R102). -/
  | bandTake
  /-- A band fill ends (R103). -/
  | bandFillComplete
  /-- A job's merge timer reaches 0 (R89). -/
  | mergeTimerExpiry (job : Nat)
  /-- A pool entry's age reaches 30 s (R85). -/
  | poolEntryDiscard (key : Text) (port : Port) (field : Nat)
  /-- A forward line period ends and the motor steps; carries what the gap sensor says (R133, R138). -/
  | forwardStep (gap : Bool)
  /-- A strobe phase's time runs out (R129). -/
  | strobePhaseEnd
  /-- The gap after a phase runs out (R129). -/
  | phaseGapEnd
  /-- A dot's class time runs out (R129). -/
  | dotClassTimeEnd (dot : Nat)
  /-- A sample of the taken sensor (R148). -/
  | takenSensorSample (absent : Bool)
  /-- The eighth consecutive absent sample (R148). -/
  | labelTaken
  /-- A back-feed step period ends (R149). -/
  | backFeedStep
  /-- Consumption of a band line in DRY completes (R156). -/
  | dryLineConsumed
  /-- A whole second of a running merge timer (R88). -/
  | mergeTimerSecond (job : Nat)
  deriving DecidableEq, Repr

end Sys2Proof
end

