-- ==== Sys2Proof/Machine/State.lean ====
section
/-! DEFINITION. The state of the UT-4410 as plain data, its stop reasons, and the state right after reset. -/

namespace Sys2Proof.Machine

/-- The whole part (chapters 1 to 12). `held` says that the device reset input is asserted (R186). `pending` is the queue of commands
that wait, first in, first out. `freeTick` is the model's own counter: it selects the next free value of Config (log 4). -/
structure State where
  pending      : List Instr
  held         : Bool
  ports        : Vector PortState 4
  slots        : Vector Slot 32
  counters     : Vector (Option Counter) 8
  retained     : Retained
  retainedLost : Bool
  queue        : List Job
  nextJob      : Nat
  redo         : List RedoEntry
  pool         : List PoolEntry
  ring         : Ring
  hand         : Option Hand
  labels       : List LabelRecord
  profile      : Option HeadProfile
  settings     : Option RunSettings
  engine       : Engine
  freeTick     : Nat
  deriving DecidableEq, Repr

/-- No command of this part stops it with a fault: what the manual calls a fault (HEAD-OPEN, OVERHEAT, ...) is a member of the fault
set and a state of the engine (R150, R151), and the part goes on. So there is no constructor. -/
inductive Fault
  deriving DecidableEq, Repr

/-- Why a command has no meaning here. -/
inductive Refusal
  /-- The command's arm has no meaning yet; raised by exec's arm alone. Safe: the model stops. No arm of this model raises it. -/
  | notModelled (mnemonic : String)
  deriving DecidableEq, Repr

/-- The port settings at reset (R172). -/
def PortSettings.reset : PortSettings where
  planeMask   := 0b1111#4
  stampPlanes := 0b0001#4
  sequence    := .strict
  attention   := 0#8
  watch       := false
  filter1     := { pattern := List.replicate 5 32#8, care := 0#5 }
  filter2     := { pattern := List.replicate 5 32#8, care := 0#5 }
  combine     := .and

/-- A frame assembler in HUNT, holding nothing (R165). -/
def Assembler.hunting : Assembler where
  state := .hunt
  kind := 0#8
  lengthHigh := 0#8
  lengthLow := 0#8
  body := []
  held := 0
  overrun := false

/-- A port after power-up (R163, R186). -/
def PortState.reset : PortState where
  assembler    := .hunting
  frames       := []
  cts          := true
  discard      := false
  settings     := .reset
  pending      := 0#8
  armHeld      := false
  armExhausted := false
  reports      := []
  displaced    := false
  watch        := none
  sent         := []

/-- A free band buffer with an empty record (R96). -/
def Buffer.empty : Buffer := { state := .free, record := none, cells := [] }

/-- The ring with every buffer FREE and both positions at buffer 0 (R98, R114). -/
def Ring.empty : Ring := { buffers := Vector.replicate 8 .empty, fill := 0, take := 0 }

/-- The empty fault set (R150). -/
def FaultSet.none : FaultSet := ⟨false, false, false, false, false⟩

/-- The engine after power-up with the lid closed (R118, R135, R137, R138). M and the counts that no rule gives a value at power-up are 0
(log 5: DESIGN CHOICE). -/
def Engine.reset : Engine where
  mode        := .unset
  faults      := .none
  hp          := 0
  mark        := 0
  gap         := false
  gapRun      := 0
  labelRun    := 0
  gapLength   := 0
  edges       := []
  registered  := false
  temperature := 25
  voltage     := 240
  hot         := false
  history1    := []
  history2    := []
  prevPeriod  := Option.none
  line        := Option.none
  heads       := []
  task        := .idle
  feedCount   := 0
  absent      := 0
  backLeft    := 0
  backPeriod  := 0
  dryLine     := Option.none
  leavingDry  := false

/-- The image written afresh when the retained content is discarded (R53). -/
def Image.fresh : Image where
  counters := Vector.replicate 8 Option.none
  scope    := .counters
  forms    := Vector.replicate 32 Option.none

/-- The machine right after reset (R186): power-up with the lid closed and no retained content kept, so retained-lost is set
(log 5: DESIGN CHOICE). -/
def State.reset : State where
  pending      := []
  held         := false
  ports        := Vector.replicate 4 .reset
  slots        := Vector.replicate 32 .empty
  counters     := Vector.replicate 8 Option.none
  retained     := Image.fresh.sealed
  retainedLost := true
  queue        := []
  nextJob      := 1
  redo         := []
  pool         := []
  ring         := .empty
  hand         := Option.none
  labels       := []
  profile      := Option.none
  settings     := Option.none
  engine       := .reset
  freeTick     := 0

end Sys2Proof.Machine
end

