-- ==== Sys2Proof/Machine/Flags.lean ====
section
/-! DEFINITION. Flags: the event vector of each port with its attention byte (R176 to R178), the fault set (R150), hold reasons (R55),
and the flag bytes they travel in. -/

namespace Sys2Proof.Machine

/-! ### The ports -/

/-- A port of the part. -/
def State.port (s : State) (p : Port) : PortState := s.ports[p]

/-- One port changed. -/
def State.onPort (s : State) (p : Port) (f : PortState → PortState) : State :=
  { s with ports := s.ports.set p (f s.ports[p]) }

/-- The engine changed. -/
def State.onEngine (s : State) (f : Engine → Engine) : State := { s with engine := f s.engine }

/-! ### The event vector -/

/-- The eight events of the vector (R176). -/
inductive Event
  | engineReady | reportWaiting | contribRefused | counterExhausted | jobHeld | positionReached | lineError | engineFault
  deriving DecidableEq, Repr

/-- An event's priority (R176). -/
def Event.priority : Event → Nat
  | .engineReady => 1
  | .reportWaiting => 2
  | .contribRefused => 3
  | .counterExhausted => 4
  | .jobHeld => 5
  | .positionReached => 6
  | .lineError => 7
  | .engineFault => 8

/-- The events in rising priority (R176). -/
def Event.all : List Event :=
  [.engineReady, .reportWaiting, .contribRefused, .counterExhausted, .jobHeld, .positionReached, .lineError, .engineFault]

/-- Whether an event is in a set (R173: numbered by priority less one). -/
def Event.isIn (e : Event) (set : EventSet) : Bool := set.getLsbD (e.priority - 1)

/-- A set with an event added. -/
def Event.addTo (e : Event) (set : EventSet) : EventSet := set ||| (1#8 <<< (e.priority - 1))

/-- A set with an event removed. -/
def Event.removeFrom (e : Event) (set : EventSet) : EventSet := set &&& ~~~(1#8 <<< (e.priority - 1))

/-- The shown event of a pending set: the one of highest priority, or none (R176). -/
def shownEvent (set : EventSet) : Option Event := Event.all.reverse.find? (fun e => e.isIn set)

/-- The vector: the priority number of the shown event, or 0 (R176). -/
def shownNumber (set : EventSet) : Nat := (shownEvent set).elim 0 Event.priority

/-- Whether a change of the pending set sends an attention byte: the shown event changes to one that is enabled (R177). -/
def needsAttention (enables old new : EventSet) : Bool :=
  match shownEvent new with
  | none => false
  | some e => shownEvent old != some e && e.isIn enables

/-- The pending set replaced: the shown event is worked out again, an attention byte falls due where R177 says so, and an arm whose
event is no longer pending is dropped (R176 to R178). -/
def PortState.setPending (q : PortState) (new : EventSet) : PortState :=
  { q with
    pending := new
    armHeld := q.armHeld && Event.jobHeld.isIn new
    armExhausted := q.armExhausted && Event.counterExhausted.isIn new
    sent := if needsAttention q.settings.attention q.pending new then q.sent ++ [.attention] else q.sent }

/-- An event posted to a port (R176). -/
def PortState.post (q : PortState) (e : Event) : PortState := q.setPending (e.addTo q.pending)

/-- An event cleared at a port (R178, R179). -/
def PortState.clearEvent (q : PortState) (e : Event) : PortState := q.setPending (e.removeFrom q.pending)

/-- An event posted to one port (R176). -/
def State.post (s : State) (p : Port) (e : Event) : State := s.onPort p (·.post e)

/-- An event posted to every port (R151, R152). -/
def State.postAll (s : State) (e : Event) : State := (List.finRange 4).foldl (fun s p => s.post p e) s

/-- What a VECTOR-QUERY does to the shown event: most are removed; JOB-HELD and COUNTER-EXHAUSTED arm their clear; REPORT-WAITING and
an empty set are left (R178). -/
def PortState.queried (q : PortState) : PortState :=
  match shownEvent q.pending with
  | none => q
  | some .reportWaiting => q
  | some .jobHeld => { q with armHeld := true }
  | some .counterExhausted => { q with armExhausted := true }
  | some e => q.clearEvent e

/-- An accepted JOB-QUERY as the clearing record of JOB-HELD (R178). -/
def PortState.clearHeld (q : PortState) : PortState := if q.armHeld then q.clearEvent .jobHeld else q

/-- An accepted COUNTER-SET as the clearing record of COUNTER-EXHAUSTED (R178). -/
def PortState.clearExhausted (q : PortState) : PortState := if q.armExhausted then q.clearEvent .counterExhausted else q

/-! ### The report list -/

/-- A report placed at the tail of a port's list: a full list of 12 loses its oldest, and REPORT-WAITING is posted (R179). -/
def PortState.place (q : PortState) (r : Report) : PortState :=
  (if q.reports.length < 12 then { q with reports := q.reports ++ [r] }
   else { q with reports := q.reports.drop (q.reports.length - 11) ++ [r], displaced := true }).post .reportWaiting

/-! ### The fault set -/

/-- The five faults (R150). -/
inductive FaultKind | headOpen | overheat | supplyLow | mediaOut | noGap
  deriving DecidableEq, Repr

/-- Whether a fault is in the set. -/
def FaultSet.has (f : FaultSet) : FaultKind → Bool
  | .headOpen => f.headOpen
  | .overheat => f.overheat
  | .supplyLow => f.supplyLow
  | .mediaOut => f.mediaOut
  | .noGap => f.noGap

/-- A fault's membership set or cleared. -/
def FaultSet.put (f : FaultSet) (k : FaultKind) (b : Bool) : FaultSet :=
  match k with
  | .headOpen => { f with headOpen := b }
  | .overheat => { f with overheat := b }
  | .supplyLow => { f with supplyLow := b }
  | .mediaOut => { f with mediaOut := b }
  | .noGap => { f with noGap := b }

/-- Whether the set is empty (R151, R152). -/
def FaultSet.isEmpty (f : FaultSet) : Bool := f == .none

/-- The fault set as a byte: bit 0 HEAD-OPEN to bit 4 NO-GAP (R185). -/
def FaultSet.byte (f : FaultSet) : List Byte :=
  byte1 (f.headOpen.toNat + 2 * f.overheat.toNat + 4 * f.supplyLow.toNat + 8 * f.mediaOut.toNat + 16 * f.noGap.toNat)

/-! ### Hold reasons -/

/-- Whether a job carries any hold reason (R55, R56). -/
def Job.isHeld (j : Job) : Bool := j.operator || j.mergeTimeout || j.counterHold.isSome

/-- The hold reasons in a reply: one byte of flags, then a presence byte and a counter byte (R77). -/
def Job.holdBytes (j : Job) : List Byte :=
  byte1 (j.operator.toNat + 2 * j.mergeTimeout.toNat + 4 * j.counterHold.isSome.toNat) ++
    (match j.counterHold with
     | none => [0#8, 0#8]
     | some c => 1#8 :: byte1 c.val)

end Sys2Proof.Machine
end

