-- ==== Sys2Proof/Machine/Lines.lean ====
section
/-! DEFINITION. The line ports: receive buffer, clear-to-send, frame assembler, the taking of a frame and its reply (R163 to R171). -/

namespace Sys2Proof.Machine

/-- The receive buffer's size (R163, R167). -/
def bufferSize : Nat := 2048

/-- Bytes the receive buffer holds: those of the frame in assembly and of every complete frame not yet taken (R167). -/
def PortState.heldBytes (q : PortState) : Nat := q.assembler.held + (q.frames.map Frame.size).sum

/-- CTS after a change of the buffer: dropped below 1,040 free bytes, raised at 1,536 or more, else left (R167). -/
def ctsFor (held : Nat) (cts : Bool) : Bool :=
  if bufferSize < held + 1040 then false else if held + 1536 ≤ bufferSize then true else cts

/-- The port with CTS brought up to date with its buffer (R167). -/
def PortState.refreshCts (q : PortState) : PortState := { q with cts := ctsFor q.heldBytes q.cts }

/-! ### The frame assembler -/

/-- What one byte does to the assembler: it goes on, the frame is complete, or the frame is discarded (R165, R166). -/
inductive Assembly
  | going (a : Assembler)
  | complete (f : Frame)
  | discarded
  deriving DecidableEq, Repr

/-- The byte sum of a frame in CHECK: kind, length bytes, body and check byte (R164). -/
def Assembler.sum (a : Assembler) (checkByte : Byte) : Nat :=
  byteSum (a.kind :: a.lengthHigh :: a.lengthLow :: (a.body ++ [checkByte]))

/-- The body length the frame's length bytes give (R164). -/
def Assembler.bodyLength (a : Assembler) : Nat := a.lengthHigh.toNat * 256 + a.lengthLow.toNat

/-- The state after the low length byte or a body byte: CHECK when the body is complete, BODY otherwise (R165). -/
def Assembler.afterBody (a : Assembler) : Assembler :=
  { a with state := if a.bodyLength ≤ a.body.length then .check else .body }

/-- One byte taken by the assembler (R165, R166). -/
def Assembler.take (a : Assembler) (b : Byte) : Assembly :=
  match a.state with
  | .hunt => if b = 0x01#8 then .going { Assembler.hunting with state := .kind, held := 1 } else .going a
  | .kind => .going { a with kind := b, state := .lengthHigh, held := a.held + 1 }
  | .lengthHigh => .going { a with lengthHigh := b, state := .lengthLow, held := a.held + 1 }
  | .lengthLow =>
    let a' := { a with lengthLow := b, held := a.held + 1 }
    if a'.bodyLength ≤ 1024 then .going a'.afterBody else .discarded
  | .body => .going { a with body := a.body ++ [b], held := a.held + 1 }.afterBody
  | .check => if a.sum b % 256 = 0 && !a.overrun then .complete { kind := a.kind, body := a.body } else .discarded

/-- The frame in assembly thrown away: its bytes leave the buffer and LINE-ERROR is posted (R166). -/
def PortState.discardFrame (q : PortState) : PortState :=
  { q with assembler := .hunting }.refreshCts.post .lineError

/-- A place of the frame passed by a lost byte: the overrun mark is set and no byte is kept. `lost` is what the assembler takes for a
length byte that was lost; at any other place its value has no effect, since the frame is discarded (R166, R167; log 12). -/
def Assembler.lose (a : Assembler) (lost : Byte) : Assembly :=
  match { a with overrun := true }.take lost with
  | .going a' => .going { a' with held := a.held }
  | result => result

/-- A byte that arrives at a full buffer is lost; outside HUNT the frame in assembly gets an overrun mark and goes on, or is discarded
at its check byte or for its length (R166, R167). -/
def PortState.overrun (q : PortState) (lost : Byte) : PortState :=
  if q.assembler.state = .hunt then q
  else
    match q.assembler.lose lost with
    | .going a => { q with assembler := a }
    | _ => q.discardFrame

/-- Whether the next byte is lost to the frame in assembly (R167). -/
def PortState.loses (q : PortState) : Bool := bufferSize ≤ q.heldBytes && q.assembler.state != .hunt

/-- A received byte entered into the port; `lost` stands in for a length byte the full buffer cannot take (R165 to R167). CTS is judged on
what the buffer holds once the byte has had its effect (log 31: DESIGN CHOICE). -/
def PortState.receive (q : PortState) (lost b : Byte) : PortState :=
  if bufferSize ≤ q.heldBytes then q.overrun lost
  else
    match q.assembler.take b with
    | .going a => { q with assembler := a }.refreshCts
    | .complete f => { q with assembler := .hunting, frames := q.frames ++ [f] }.refreshCts
    | .discarded => q.discardFrame

/-- The 50 ms run out: a frame in assembly is discarded; in HUNT there is none (R166). -/
def PortState.timeout (q : PortState) : PortState := if q.assembler.state = .hunt then q else q.discardFrame

/-- What a port reset does to the port itself: discard state, pending set, arms, report list, watch, receive buffer, assembler and
CTS. Its settings stay (R163, R168). -/
def PortState.resetLine (q : PortState) : PortState :=
  { q with
    assembler := .hunting, frames := [], cts := true, discard := false, pending := 0#8, armHeld := false, armExhausted := false,
    reports := [], displaced := false, watch := none }

/-! ### Taking a frame and replying -/

/-- The reply codes (R170). -/
inductive ReplyCode
  | accept | ignored | badLength | unknownKind | badValue | badSequence | notSetUp | alreadySet | notOwner | formMissing | formInUse
  | formIncomplete | formTooWide | storeFull | queueFull | duplicateKey | poolFull | noSuchField | jobMissing | tooLate | engineBusy
  deriving DecidableEq, Repr

/-- The value of a reply code (R170). -/
def ReplyCode.byte : ReplyCode → Byte
  | .accept => 0x00#8
  | .ignored => 0x01#8
  | .badLength => 0x10#8
  | .unknownKind => 0x11#8
  | .badValue => 0x12#8
  | .badSequence => 0x13#8
  | .notSetUp => 0x14#8
  | .alreadySet => 0x15#8
  | .notOwner => 0x16#8
  | .formMissing => 0x17#8
  | .formInUse => 0x18#8
  | .formIncomplete => 0x19#8
  | .formTooWide => 0x1A#8
  | .storeFull => 0x1B#8
  | .queueFull => 0x1C#8
  | .duplicateKey => 0x1D#8
  | .poolFull => 0x1E#8
  | .noSuchField => 0x1F#8
  | .jobMissing => 0x20#8
  | .tooLate => 0x21#8
  | .engineBusy => 0x22#8

/-- The record kinds (R171). -/
inductive Kind
  | headProfile | runSettings | retainScope | portSettings | formBegin | fieldDef | stencilDef | formEnd | formDelete | formQuery
  | counterSet | counterFree | counterQuery | jobOpen | fieldData | jobClose | discard | jobHold | jobRelease | jobCancel | jobQuery
  | contribute | feed | dryRunOn | dryRunOff | engineQuery | vectorQuery | reportRead | positionWatch | portReset
  deriving DecidableEq, Repr

/-- The kind byte of a record kind (R171). -/
def Kind.byte : Kind → Byte
  | .headProfile => 0x10#8
  | .runSettings => 0x11#8
  | .retainScope => 0x12#8
  | .portSettings => 0x13#8
  | .formBegin => 0x20#8
  | .fieldDef => 0x21#8
  | .stencilDef => 0x22#8
  | .formEnd => 0x23#8
  | .formDelete => 0x24#8
  | .formQuery => 0x25#8
  | .counterSet => 0x28#8
  | .counterFree => 0x29#8
  | .counterQuery => 0x2A#8
  | .jobOpen => 0x30#8
  | .fieldData => 0x31#8
  | .jobClose => 0x32#8
  | .discard => 0x33#8
  | .jobHold => 0x34#8
  | .jobRelease => 0x35#8
  | .jobCancel => 0x36#8
  | .jobQuery => 0x37#8
  | .contribute => 0x38#8
  | .feed => 0x40#8
  | .dryRunOn => 0x41#8
  | .dryRunOff => 0x42#8
  | .engineQuery => 0x43#8
  | .vectorQuery => 0x48#8
  | .reportRead => 0x49#8
  | .positionWatch => 0x4A#8
  | .portReset => 0x4F#8

/-- Every record kind (R171). -/
def Kind.all : List Kind :=
  [.headProfile, .runSettings, .retainScope, .portSettings, .formBegin, .fieldDef, .stencilDef, .formEnd, .formDelete, .formQuery,
   .counterSet, .counterFree, .counterQuery, .jobOpen, .fieldData, .jobClose, .discard, .jobHold, .jobRelease, .jobCancel, .jobQuery,
   .contribute, .feed, .dryRunOn, .dryRunOff, .engineQuery, .vectorQuery, .reportRead, .positionWatch, .portReset]

/-- The record kind a kind byte names, if any (R170, R171). -/
def kindOf (b : Byte) : Option Kind := Kind.all.find? (fun k => k.byte == b)

/-- Whether the port can take this record now: it is the oldest complete frame (R169); or no byte waits at the port, and the command
stands for the frame's arrival and its taking together (log 6: DESIGN CHOICE). -/
def PortState.offers (q : PortState) (kind : Byte) (body : List Byte) : Bool :=
  match q.frames with
  | f :: _ => f == { kind := kind, body := body }
  | [] => q.assembler.state == .hunt && body.length ≤ 1024

/-- The bytes of the taken frame leave the buffer (R167, R169). -/
def PortState.takeFrame (q : PortState) : PortState := { q with frames := q.frames.tail }.refreshCts

/-- A reply frame sent (R169). -/
def State.reply (s : State) (p : Port) (kind : Byte) (code : ReplyCode) (data : List Byte) : State :=
  s.onPort p (fun q => { q with sent := q.sent ++ [.reply (kind ||| 0x80#8) (code.byte :: data)] })

/-- The reply ACCEPT to a record, with its reply data (R169, R170). -/
def State.accept (s : State) (p : Port) (k : Kind) (data : List Byte) : State := s.reply p k.byte .accept data

/-- A refusal, or IGNORED: the code alone (R169, R170). -/
def State.answer (s : State) (p : Port) (k : Kind) (code : ReplyCode) : State := s.reply p k.byte code []

/-- An effect that happens only while the part runs: under the device reset input the part is held (R186). -/
def State.running (s : State) (f : State → State) : Host.Outcome State Fault Refusal :=
  if s.held then .next s else .next (f s)

/-- A frame taken by its port and handed on (R169). Nothing happens while the port cannot take it. -/
def State.takeRecord (s : State) (p : Port) (kind : Byte) (body : List Byte) (act : State → State) :
    Host.Outcome State Fault Refusal :=
  s.running fun s => if (s.port p).offers kind body then act (s.onPort p PortState.takeFrame) else s

/-- A record of a known kind: refused BAD-LENGTH when its body cannot be read by the kind's layout, else handed to its block (R170). -/
def State.record {α : Type} (s : State) (p : Port) (k : Kind) (body : List Byte) (parse : List Byte → Option α)
    (act : α → State → State) : Host.Outcome State Fault Refusal :=
  s.takeRecord p k.byte body fun s =>
    match parse body with
    | none => s.reply p k.byte .badLength []
    | some r => act r s

end Sys2Proof.Machine
end

