-- ==== Sys2Proof/Machine/Operands.lean ====
section
/-! DEFINITION. Operand forms: the bodies of the records, read by their byte layouts (R171 to R174). A reader answers none where the
body's length is not what the layout requires (BAD-LENGTH, R170); ranges are checked apart, by each record's rule. -/

namespace Sys2Proof.Machine

/-- A body that must be empty. -/
def parseEmpty (b : List Byte) : Option Unit := if b.length = 0 then some () else none

/-- A body of one byte. -/
def parseByte (b : List Byte) : Option Nat := if b.length = 1 then some (natAt b 0) else none

/-- A body of two bytes: a job number (R171). -/
def parseNumber (b : List Byte) : Option Nat := if b.length = 2 then some (nat2At b 0) else none

/-- A choice byte among two named values (R173). -/
def choice2 {α : Type} (n : Nat) (x0 x1 : α) : Option α := if n = 0 then some x0 else if n = 1 then some x1 else none

/-- A flag byte (R173). -/
def flagAt (b : List Byte) (i : Nat) : Option Bool := choice2 (natAt b i) false true

/-- A set-of-planes byte: bits 7 to 4 must be 0 (R172 to R174). -/
def planesAt (b : List Byte) (i : Nat) : Option Planes :=
  if natAt b i < 16 then some (BitVec.ofNat 4 (natAt b i)) else none

/-! ### Set-up records -/

/-- HEAD-PROFILE: 7 bytes (R183). -/
def parseHeadProfile (b : List Byte) : Option HeadProfile :=
  if b.length = 7 then
    some { dots := nat2At b 0, groups := natAt b 2, sensor := nat2At b 3, peel := natAt b 5, threshold := natAt b 6 }
  else none

/-- The head dot counts there are (00_scope, Head geometry; R183). -/
def headDotCounts : List Nat := [448, 512, 576, 640, 704, 768, 832, 896]

/-- The ranges of a head profile (R183). -/
def HeadProfile.inRange (h : HeadProfile) : Bool :=
  headDotCounts.contains h.dots && [2, 4, 8].contains h.groups && h.sensor ≤ 400 && h.peel ≤ 240 &&
    45 ≤ h.threshold && h.threshold ≤ 75

/-- RUN-SETTINGS: 18 bytes (R184). The outer none is a wrong length; the inner one a choice byte outside its values. -/
def parseRunSettings (b : List Byte) : Option (Option RunSettings) :=
  if b.length = 18 then
    some do
      let fire ← choice2 (natAt b 2) FireOrder.sequential FireOrder.interleaved
      let present ← choice2 (natAt b 16) PresentMode.tear PresentMode.peel
      let underrun ← choice2 (natAt b 17) UnderrunPolicy.pause UnderrunPolicy.redo
      return {
        darkness := natAt b 0, speed := natAt b 1, fireOrder := fire, budget := nat2At b 3, weightB := nat2At b 5,
        weightC := nat2At b 7, weightD := nat2At b 9, nOn := natAt b 11, nOff := natAt b 12, gapLimit := natAt b 13,
        tolerance := natAt b 14, topOffset := int1At b 15, present := present, underrun := underrun }
  else none

/-- The speeds there are, in mm/s (R132, R184). -/
def speeds : List Nat := [25, 50, 75, 100, 125, 150, 175, 200]

/-- The ranges of run settings under a head of D dots (R184). -/
def RunSettings.inRange (r : RunSettings) (d : Nat) : Bool :=
  r.darkness ≤ 31 && speeds.contains r.speed && 32 ≤ r.budget && r.budget ≤ d &&
    r.weightB ≤ 1024 && r.weightC ≤ r.weightB && r.weightD ≤ r.weightC && 512 ≤ r.weightD &&
    1 ≤ r.nOn && r.nOn ≤ 15 && 1 ≤ r.nOff && r.nOff ≤ 15 && 8 ≤ r.gapLimit && r.tolerance ≤ 32 &&
    -32 ≤ r.topOffset && r.topOffset ≤ 32

/-- PORT-SETTINGS: 18 bytes (R172). The inner none is a byte outside its values. -/
def parsePortSettings (b : List Byte) : Option (Option PortSettings) :=
  if b.length = 18 then
    some do
      let mask ← planesAt b 0
      let stamp ← planesAt b 1
      let sequence ← choice2 (natAt b 2) SequenceMode.strict SequenceMode.free
      let watch ← flagAt b 4
      let care1 ← if natAt b 10 < 32 then some (BitVec.ofNat 5 (natAt b 10)) else none
      let care2 ← if natAt b 16 < 32 then some (BitVec.ofNat 5 (natAt b 16)) else none
      let combine ← ([Combine.and, .or, .nand, .nor])[natAt b 17]?
      return {
        planeMask := mask, stampPlanes := stamp, sequence := sequence, attention := BitVec.ofNat 8 (natAt b 3), watch := watch,
        filter1 := { pattern := sliceAt b 5 5, care := care1 }, filter2 := { pattern := sliceAt b 11 5, care := care2 },
        combine := combine }
  else none

/-- RETAIN-SCOPE: 1 byte (R52). The inner none is a scope that is neither. -/
def parseScope (b : List Byte) : Option (Option Scope) :=
  if b.length = 1 then some (choice2 (natAt b 0) Scope.counters Scope.countersAndForms) else none

/-! ### Form records -/

/-- What FORM-BEGIN carries: the form number and the form, empty of fields and stencils (R14, R173). -/
structure FormBegin where
  number       : Nat
  shared       : Bool
  length       : Nat
  width        : Nat
  printPlanes  : Planes
  mergeTimeout : Nat
  policy       : MergePolicy
  deriving DecidableEq, Repr

/-- FORM-BEGIN: 9 bytes (R173). The inner none is a value out of its range in R2, or a form number outside 1 to 32 (R14). -/
def parseFormBegin (b : List Byte) : Option (Option FormBegin) :=
  if b.length = 9 then
    some do
      let shared ← flagAt b 1
      let planes ← planesAt b 6
      let policy ← ([MergePolicy.fallback, .hold, .void])[natAt b 8]?
      let r : FormBegin := {
        number := natAt b 0, shared := shared, length := nat2At b 2, width := nat2At b 4, printPlanes := planes,
        mergeTimeout := natAt b 7, policy := policy }
      if 1 ≤ r.number && r.number ≤ 32 && 16 ≤ r.length && r.length ≤ 2400 && 64 ≤ r.width && r.width ≤ 896 &&
          r.printPlanes != 0#4 then
        some r
      else none
  else none

/-- Where the parts of a FIELD-DEF body lie: the lengths of the two texts, once the whole length agrees (R174). -/
def fieldDefLengths (b : List Byte) : Option (Nat × Nat) :=
  let t := natAt b 14
  let f := natAt b (15 + t)
  if 15 ≤ b.length && 16 + t ≤ b.length && b.length = 25 + t + f then some (t, f) else none

/-- The rotation a byte names (R174). -/
def rotationOf (n : Nat) : Option Rotation := ([Rotation.deg0, .deg90, .deg180, .deg270])[n]?

/-- The source of a FIELD-DEF, with the range checks of its own part (R7, R174). -/
def sourceOf (code arg digits : Nat) : Option Source :=
  match code with
  | 0 => some .fixed
  | 1 => some .job
  | 2 => if h : arg < 4 then some (.contrib ⟨arg, h⟩) else none
  | 3 => if h : arg < 8 then (if 1 ≤ digits && digits ≤ 9 then some (.counter ⟨arg, h⟩ digits) else none) else none
  | 4 => some .copyIndex
  | _ => none

/-- The kind part of a FIELD-DEF at an offset, with its range checks (R9 to R12, R174). -/
def kindPartOf (code : Nat) (b : List Byte) (o : Nat) : Option KindPart :=
  match code with
  | 0 => do
    let font ← ([Font.s, .m, .l])[natAt b o]?
    let hs := natAt b (o + 1)
    let vs := natAt b (o + 2)
    let m := natAt b (o + 3)
    if 1 ≤ hs && hs ≤ 8 && 1 ≤ vs && vs ≤ 8 && 1 ≤ m && m ≤ 64 then some (.text font hs vs m) else none
  | 1 => do
    let n := natAt b o
    let w := natAt b (o + 1)
    let height := nat2At b (o + 2)
    let mod10 ← choice2 (natAt b (o + 4)) false true
    let r := natAt b (o + 5)
    let readable ← flagAt b (o + 6)
    let boxWidth := nat2At b (o + 7)
    if 1 ≤ n && n ≤ 8 && 2 * n ≤ w && w ≤ 3 * n && 8 ≤ height && height ≤ 800 && r < n && 16 ≤ boxWidth && boxWidth ≤ 896 then
      some (.barcode n w height mod10 r readable boxWidth)
    else none
  | 2 =>
    let w := nat2At b o
    let h := nat2At b (o + 2)
    let border := natAt b (o + 4)
    if 1 ≤ w && w ≤ 2400 && 1 ≤ h && h ≤ 2400 && border ≤ 32 then some (.box w h border) else none
  | 3 =>
    let n := natAt b o
    let w := nat2At b (o + 1)
    let h := nat2At b (o + 3)
    if 1 ≤ n && n ≤ 8 && 1 ≤ w && w ≤ 896 && 1 ≤ h && h ≤ 2400 then some (.stamp n w h) else none
  | _ => none

/-- Which sources each kind may be used with (R7). Only BOX, and STAMP with source FIXED, need an empty fixed text: TEXT and BARCODE of
another source than FIXED, and STAMP with source CONTRIB, are taken with any (log 22: DEDUCED). -/
def sourceAllowed (part : KindPart) (source : Source) (fixedText : Text) : Bool :=
  match part, source with
  | .text .., _ => true
  | .barcode .., .copyIndex => false
  | .barcode .., _ => true
  | .box .., .fixed => fixedText.isEmpty
  | .box .., _ => false
  | .stamp .., .fixed => fixedText.isEmpty
  | .stamp .., .contrib _ => true
  | .stamp .., _ => false

/-- Whether a kind part is a STAMP's. -/
def KindPart.isStamp : KindPart → Bool
  | .stamp .. => true
  | _ => false

/-- Whether a source is CONTRIB. -/
def Source.isContrib : Source → Bool
  | .contrib _ => true
  | _ => false

/-- FIELD-DEF: 25 + t + f bytes (R174). The inner none is a value refused BAD-VALUE by R15 step 2, but for the uniqueness of the field
number, which needs the form. -/
def parseFieldDef (b : List Byte) : Option (Option Field) :=
  (fieldDefLengths b).map fun (t, f) => do
    let rotation ← rotationOf (natAt b 6)
    let source ← sourceOf (natAt b 10) (natAt b 11) (natAt b 12)
    let required ← flagAt b 13
    let part ← kindPartOf (natAt b 1) b (16 + t + f)
    let r : Field := {
      number := natAt b 0, x := nat2At b 2, y := nat2At b 4, rotation := rotation, planeByte := b.getD 7 0,
      inkByte := b.getD 8 0, rank := natAt b 9, source := source, required := required, fixedText := sliceAt b 15 t,
      fallback := sliceAt b (16 + t) f, part := part }
    if 1 ≤ r.number && r.number ≤ 96 && r.x ≤ 895 && r.y ≤ 2399 && r.rank ≤ 7 && t ≤ 64 && f ≤ 16 &&
        (part.isStamp || (1 ≤ r.planeByte.toNat && r.planeByte.toNat < 16 && r.inkByte.toNat ≤ 1)) &&
        sourceAllowed part source r.fixedText && (source.isContrib || (!required && r.fallback.isEmpty)) then
      some r
    else none

/-- What STENCIL-DEF carries: stencil number, row count and the row bytes (R16). -/
structure StencilDef where
  number : Nat
  count  : Nat
  bytes  : List Byte
  deriving DecidableEq, Repr

/-- STENCIL-DEF: at least 2 bytes here; its rows are checked by its own rule (R16, R170). -/
def parseStencilDef (b : List Byte) : Option StencilDef :=
  if 2 ≤ b.length then some { number := natAt b 0, count := natAt b 1, bytes := b.drop 2 } else none

/-- The rows of a stencil: four bytes each, column 0 the most significant bit of the first (R16). -/
def stencilRows (count : Nat) (bytes : List Byte) : List (BitVec 32) :=
  (List.range count).map fun i => BitVec.ofNat 32 (nat4At bytes (4 * i))

/-! ### Counter records -/

/-- What COUNTER-SET carries (R40). -/
structure CounterSet where
  number : Nat
  start  : Nat
  step   : Int
  low    : Nat
  high   : Nat
  policy : Option CounterPolicy
  deriving DecidableEq, Repr

/-- COUNTER-SET: 16 bytes (R173). -/
def parseCounterSet (b : List Byte) : Option CounterSet :=
  if b.length = 16 then
    some {
      number := natAt b 0, start := nat4At b 1, step := int2At b 5, low := nat4At b 7, high := nat4At b 11,
      policy := choice2 (natAt b 15) CounterPolicy.stop CounterPolicy.wrap }
  else none

/-- The checks of COUNTER-SET that refuse BAD-VALUE (R40): the counter and its definition where all pass. -/
def CounterSet.checked (r : CounterSet) (owner : Port) : Option (CounterNo × Counter) :=
  if h : r.number < 8 then
    match r.policy with
    | none => none
    | some policy =>
      if r.high ≤ 999999999 && r.low ≤ r.high && r.low ≤ r.start && r.start ≤ r.high && -9999 ≤ r.step && r.step ≤ 9999 &&
          r.step != 0 then
        some (⟨r.number, h⟩,
          { owner := owner, value := r.start, step := r.step, low := r.low, high := r.high, policy := policy, exhausted := false })
      else none
  else none

/-! ### Job and contribution records -/

/-- Whether a character may stand in a carton key: a digit, a capital letter or the hyphen (00_scope, Text). -/
def keyChar (c : Byte) : Bool :=
  (48 ≤ c.toNat && c.toNat ≤ 57) || (65 ≤ c.toNat && c.toNat ≤ 90) || c.toNat == 45

/-- Whether a string is a carton key (R55, R58, R80). -/
def validKey (k : Text) : Bool := 1 ≤ k.length && k.length ≤ 12 && k.all keyChar

/-- What JOB-OPEN carries (R58). -/
structure JobOpen where
  form  : Nat
  total : Nat
  cls   : JobClass
  key   : Option Text
  deriving DecidableEq, Repr

/-- JOB-OPEN: 6 + k bytes (R174). The inner none is a value refused BAD-VALUE by the first check of R58. -/
def parseJobOpen (b : List Byte) : Option (Option JobOpen) :=
  if 6 ≤ b.length && b.length = 6 + natAt b 5 then
    some do
      let cls ← choice2 (natAt b 3) JobClass.normal JobClass.rush
      let present ← flagAt b 4
      let key := sliceAt b 6 (natAt b 5)
      let ok := if present then validKey key else key.isEmpty
      if 1 ≤ natAt b 0 && natAt b 0 ≤ 32 && 1 ≤ nat2At b 1 && nat2At b 1 ≤ 999 && ok then
        some { form := natAt b 0, total := nat2At b 1, cls := cls, key := if present then some key else none }
      else none
  else none

/-- FIELD-DATA: 2 + v bytes: the field number and the value (R171). -/
def parseFieldData (b : List Byte) : Option (Nat × Text) :=
  if 2 ≤ b.length && b.length = 2 + natAt b 1 then some (natAt b 0, b.drop 2) else none

/-- What CONTRIBUTE carries (R79). -/
structure Contribute where
  key   : Text
  field : Nat
  value : Text
  deriving DecidableEq, Repr

/-- CONTRIBUTE: 3 + k + v bytes (R174). -/
def parseContribute (b : List Byte) : Option Contribute :=
  let k := natAt b 0
  let v := natAt b (2 + k)
  if 1 ≤ b.length && 3 + k ≤ b.length && b.length = 3 + k + v then
    some { key := sliceAt b 1 k, field := natAt b (1 + k), value := sliceAt b (3 + k) v }
  else none

/-- The first check of R80. -/
def Contribute.inRange (r : Contribute) : Bool :=
  validKey r.key && 1 ≤ r.field && r.field ≤ 96 && r.value.length ≤ 64

/-- POSITION-WATCH: 6 bytes (R171, R182). -/
def parsePositionWatch (b : List Byte) : Option PositionWatch :=
  if b.length = 6 then some { job := nat2At b 0, copy := nat2At b 2, line := nat2At b 4 } else none

end Sys2Proof.Machine
end

