-- ==== Sys2Proof/WellFormed.lean ====
section
/-! DEFINITION. Which commands can occur at the part: what a line, a sensor or one of its own timers can bring. -/

namespace Sys2Proof

open Sys2Proof.Machine

/-- A record body fits a record frame: 0 to 1,024 bytes (R164). -/
def bodyFits (body : List Byte) : Bool := body.length ≤ 1024

/-- A job number: 1 to 4,095 (R57). -/
def isJobNumber (n : Nat) : Bool := 1 ≤ n && n ≤ 4095

/-- Whether a command can occur (R55, R57, R119, R164, R170; 00_scope, Head geometry). -/
def Instr.wellFormed : Instr → Bool
  | .headProfile _ body => bodyFits body
  | .runSettings _ body => bodyFits body
  | .retainScope _ body => bodyFits body
  | .portSettings _ body => bodyFits body
  | .formBegin _ body => bodyFits body
  | .fieldDef _ body => bodyFits body
  | .stencilDef _ body => bodyFits body
  | .formEnd _ body => bodyFits body
  | .formDelete _ body => bodyFits body
  | .formQuery _ body => bodyFits body
  | .counterSet _ body => bodyFits body
  | .counterFree _ body => bodyFits body
  | .counterQuery _ body => bodyFits body
  | .jobOpen _ body => bodyFits body
  | .fieldData _ body => bodyFits body
  | .jobClose _ body => bodyFits body
  | .discard _ body => bodyFits body
  | .jobHold _ body => bodyFits body
  | .jobRelease _ body => bodyFits body
  | .jobCancel _ body => bodyFits body
  | .jobQuery _ body => bodyFits body
  | .contribute _ body => bodyFits body
  | .feed _ body => bodyFits body
  | .dryRunOn _ body => bodyFits body
  | .dryRunOff _ body => bodyFits body
  | .engineQuery _ body => bodyFits body
  | .vectorQuery _ body => bodyFits body
  | .reportRead _ body => bodyFits body
  | .positionWatch _ body => bodyFits body
  | .portReset _ body => bodyFits body
  | .unknownKind _ kind body => bodyFits body && (kindOf kind).isNone
  | .receiveByte _ _ _ => true
  | .frameTimeout _ => true
  | .lineBreak _ => true
  | .deviceResetAssert _ => true
  | .powerUp _ _ => true
  | .sensorReading _ voltage => voltage ≤ 400
  | .lidSwitchOpen => true
  | .lidSwitchClosed => true
  | .composerAsk => true
  | .bandTake => true
  | .bandFillComplete => true
  | .mergeTimerExpiry job => isJobNumber job
  | .poolEntryDiscard key _ field => validKey key && 1 ≤ field && field ≤ 96
  | .forwardStep _ => true
  | .strobePhaseEnd => true
  | .phaseGapEnd => true
  | .dotClassTimeEnd dot => dot < 896
  | .takenSensorSample _ => true
  | .labelTaken => true
  | .backFeedStep => true
  | .dryLineConsumed => true
  | .mergeTimerSecond job => isJobNumber job

end Sys2Proof
end

