-- ==== Sys2Proof/Decode.lean ====
section
/-! DEFINITION. From what a line carries to a command: the command a taken frame stands for (R169 to R171), and the command an opcode-table
word spells. -/

namespace Sys2Proof

open Sys2Proof.Machine

/-- The record command of a kind (R171). -/
def commandOfKind (k : Kind) (port : Port) (body : List Byte) : Instr :=
  match k with
  | .headProfile => .headProfile port body
  | .runSettings => .runSettings port body
  | .retainScope => .retainScope port body
  | .portSettings => .portSettings port body
  | .formBegin => .formBegin port body
  | .fieldDef => .fieldDef port body
  | .stencilDef => .stencilDef port body
  | .formEnd => .formEnd port body
  | .formDelete => .formDelete port body
  | .formQuery => .formQuery port body
  | .counterSet => .counterSet port body
  | .counterFree => .counterFree port body
  | .counterQuery => .counterQuery port body
  | .jobOpen => .jobOpen port body
  | .fieldData => .fieldData port body
  | .jobClose => .jobClose port body
  | .discard => .discard port body
  | .jobHold => .jobHold port body
  | .jobRelease => .jobRelease port body
  | .jobCancel => .jobCancel port body
  | .jobQuery => .jobQuery port body
  | .contribute => .contribute port body
  | .feed => .feed port body
  | .dryRunOn => .dryRunOn port body
  | .dryRunOff => .dryRunOff port body
  | .engineQuery => .engineQuery port body
  | .vectorQuery => .vectorQuery port body
  | .reportRead => .reportRead port body
  | .positionWatch => .positionWatch port body
  | .portReset => .portReset port body

/-- The command a frame taken at a port stands for; a kind byte of no kind gives UNKNOWN-KIND (R169 to R171). -/
def commandOfFrame (port : Port) (f : Frame) : Instr :=
  match kindOf f.kind with
  | some k => commandOfKind k port f.body
  | none => .unknownKind port f.kind f.body

/-- The frame a record command stands for: its port, kind byte and body; none for an event. -/
def Instr.frame? : Instr → Option (Port × Frame)
  | .headProfile p b => some (p, ⟨Kind.headProfile.byte, b⟩)
  | .runSettings p b => some (p, ⟨Kind.runSettings.byte, b⟩)
  | .retainScope p b => some (p, ⟨Kind.retainScope.byte, b⟩)
  | .portSettings p b => some (p, ⟨Kind.portSettings.byte, b⟩)
  | .formBegin p b => some (p, ⟨Kind.formBegin.byte, b⟩)
  | .fieldDef p b => some (p, ⟨Kind.fieldDef.byte, b⟩)
  | .stencilDef p b => some (p, ⟨Kind.stencilDef.byte, b⟩)
  | .formEnd p b => some (p, ⟨Kind.formEnd.byte, b⟩)
  | .formDelete p b => some (p, ⟨Kind.formDelete.byte, b⟩)
  | .formQuery p b => some (p, ⟨Kind.formQuery.byte, b⟩)
  | .counterSet p b => some (p, ⟨Kind.counterSet.byte, b⟩)
  | .counterFree p b => some (p, ⟨Kind.counterFree.byte, b⟩)
  | .counterQuery p b => some (p, ⟨Kind.counterQuery.byte, b⟩)
  | .jobOpen p b => some (p, ⟨Kind.jobOpen.byte, b⟩)
  | .fieldData p b => some (p, ⟨Kind.fieldData.byte, b⟩)
  | .jobClose p b => some (p, ⟨Kind.jobClose.byte, b⟩)
  | .discard p b => some (p, ⟨Kind.discard.byte, b⟩)
  | .jobHold p b => some (p, ⟨Kind.jobHold.byte, b⟩)
  | .jobRelease p b => some (p, ⟨Kind.jobRelease.byte, b⟩)
  | .jobCancel p b => some (p, ⟨Kind.jobCancel.byte, b⟩)
  | .jobQuery p b => some (p, ⟨Kind.jobQuery.byte, b⟩)
  | .contribute p b => some (p, ⟨Kind.contribute.byte, b⟩)
  | .feed p b => some (p, ⟨Kind.feed.byte, b⟩)
  | .dryRunOn p b => some (p, ⟨Kind.dryRunOn.byte, b⟩)
  | .dryRunOff p b => some (p, ⟨Kind.dryRunOff.byte, b⟩)
  | .engineQuery p b => some (p, ⟨Kind.engineQuery.byte, b⟩)
  | .vectorQuery p b => some (p, ⟨Kind.vectorQuery.byte, b⟩)
  | .reportRead p b => some (p, ⟨Kind.reportRead.byte, b⟩)
  | .positionWatch p b => some (p, ⟨Kind.positionWatch.byte, b⟩)
  | .portReset p b => some (p, ⟨Kind.portReset.byte, b⟩)
  | .unknownKind p k b => some (p, ⟨k, b⟩)
  | .receiveByte _ _ _ => none
  | .frameTimeout _ => none
  | .lineBreak _ => none
  | .deviceResetAssert _ => none
  | .powerUp _ _ => none
  | .sensorReading _ _ => none
  | .lidSwitchOpen => none
  | .lidSwitchClosed => none
  | .composerAsk => none
  | .bandTake => none
  | .bandFillComplete => none
  | .mergeTimerExpiry _ => none
  | .poolEntryDiscard _ _ _ => none
  | .forwardStep _ => none
  | .strobePhaseEnd => none
  | .phaseGapEnd => none
  | .dotClassTimeEnd _ => none
  | .takenSensorSample _ => none
  | .labelTaken => none
  | .backFeedStep => none
  | .dryLineConsumed => none
  | .mergeTimerSecond _ => none

/-- The command an opcode-table word spells: none, since the table gives no row any bits. -/
def decodeTableWord (_nbits _w : Nat) : Option Instr := none

end Sys2Proof
end

