-- ==== Sys2Proof/Machine/Encode.lean ====
section
/-! DEFINITION. What a master sends: the body of each record, written from the byte layouts (R171 to R174), and the body lengths each kind
requires (R170, R171, R174). -/

namespace Sys2Proof.Machine

/-! ### Body lengths (R170, R171, R174) -/

/-- Whether a body's length is what its kind's layout requires; for variable bodies worked from the counts inside (R170, R171, R174). -/
def Kind.lengthFits (k : Kind) (b : List Byte) : Bool :=
  match k with
  | .headProfile => b.length == 7
  | .runSettings | .portSettings => b.length == 18
  | .retainScope | .formDelete | .formQuery | .counterFree | .counterQuery => b.length == 1
  | .formBegin => b.length == 9
  | .fieldDef =>
    15 ≤ b.length && 16 + natAt b 14 ≤ b.length && b.length == 25 + natAt b 14 + natAt b (15 + natAt b 14)
  | .stencilDef => 2 ≤ b.length
  | .counterSet => b.length == 16
  | .jobOpen => 6 ≤ b.length && b.length == 6 + natAt b 5
  | .fieldData => 2 ≤ b.length && b.length == 2 + natAt b 1
  | .jobHold | .jobRelease | .jobCancel | .jobQuery => b.length == 2
  | .contribute => 1 ≤ b.length && 3 + natAt b 0 ≤ b.length && b.length == 3 + natAt b 0 + natAt b (2 + natAt b 0)
  | .positionWatch => b.length == 6
  | .formEnd | .jobClose | .discard | .feed | .dryRunOn | .dryRunOff | .engineQuery | .vectorQuery | .reportRead | .portReset =>
    b.length == 0

/-! ### Bodies -/

/-- HEAD-PROFILE: D, G, S, E, H (R183). -/
def HeadProfile.body (h : HeadProfile) : List Byte :=
  byte2 h.dots ++ byte1 h.groups ++ byte2 h.sensor ++ byte1 h.peel ++ byte1 h.threshold

/-- RUN-SETTINGS (R184). -/
def RunSettings.body (r : RunSettings) : List Byte :=
  byte1 r.darkness ++ byte1 r.speed ++ flag1 (r.fireOrder == .interleaved) ++ byte2 r.budget ++ byte2 r.weightB ++ byte2 r.weightC ++
    byte2 r.weightD ++ byte1 r.nOn ++ byte1 r.nOff ++ byte1 r.gapLimit ++ byte1 r.tolerance ++ signed1 r.topOffset ++
    flag1 (r.present == .peel) ++ flag1 (r.underrun == .redo)

/-- A combine setting's number (R172, R173). -/
def Combine.number : Combine → Nat
  | .and => 0
  | .or => 1
  | .nand => 2
  | .nor => 3

/-- PORT-SETTINGS (R172). -/
def PortSettings.body (t : PortSettings) : List Byte :=
  byte1 t.planeMask.toNat ++ byte1 t.stampPlanes.toNat ++ flag1 (t.sequence == .free) ++ [t.attention] ++ flag1 t.watch ++
    t.filter1.pattern ++ byte1 t.filter1.care.toNat ++ t.filter2.pattern ++ byte1 t.filter2.care.toNat ++ byte1 t.combine.number

/-- A merge policy's byte (R2, R173). -/
def MergePolicy.byte : MergePolicy → List Byte
  | .fallback => byte1 0
  | .hold => byte1 1
  | .void => byte1 2

/-- FORM-BEGIN (R14, R173). -/
def FormBegin.body (r : FormBegin) : List Byte :=
  byte1 r.number ++ flag1 r.shared ++ byte2 r.length ++ byte2 r.width ++ byte1 r.printPlanes.toNat ++ byte1 r.mergeTimeout ++
    r.policy.byte

/-- The ranges of FORM-BEGIN (R2, R14). -/
def FormBegin.inRange (r : FormBegin) : Bool :=
  1 ≤ r.number && r.number ≤ 32 && 16 ≤ r.length && r.length ≤ 2400 && 64 ≤ r.width && r.width ≤ 896 && r.printPlanes != 0#4 &&
    r.mergeTimeout ≤ 255

/-- A source's three bytes: code, port or counter, digit count (R174). -/
def Source.bytes : Source → List Byte
  | .fixed => [0#8, 0#8, 0#8]
  | .job => [1#8, 0#8, 0#8]
  | .contrib p => [2#8] ++ byte1 p.val ++ [0#8]
  | .counter c k => [3#8] ++ byte1 c.val ++ byte1 k
  | .copyIndex => [4#8, 0#8, 0#8]

/-- A rotation's byte (R174). -/
def Rotation.byte : Rotation → List Byte
  | .deg0 => byte1 0
  | .deg90 => byte1 1
  | .deg180 => byte1 2
  | .deg270 => byte1 3

/-- A font's byte (R174). -/
def Font.byte : Font → List Byte
  | .s => byte1 0
  | .m => byte1 1
  | .l => byte1 2

/-- A kind's code byte (R174). -/
def KindPart.code : KindPart → List Byte
  | .text .. => byte1 0
  | .barcode .. => byte1 1
  | .box .. => byte1 2
  | .stamp .. => byte1 3

/-- The nine bytes of a kind part, unread bytes 0 (R174). -/
def KindPart.bytes : KindPart → List Byte
  | .text font hs vs m => font.byte ++ byte1 hs ++ byte1 vs ++ byte1 m ++ List.replicate 5 0#8
  | .barcode n w height mod10 r readable boxWidth =>
    byte1 n ++ byte1 w ++ byte2 height ++ flag1 mod10 ++ byte1 r ++ flag1 readable ++ byte2 boxWidth
  | .box w h border => byte2 w ++ byte2 h ++ byte1 border ++ List.replicate 4 0#8
  | .stamp n w h => byte1 n ++ byte2 w ++ byte2 h ++ List.replicate 4 0#8

/-- FIELD-DEF (R174). -/
def Field.body (x : Field) : List Byte :=
  byte1 x.number ++ x.part.code ++ byte2 x.x ++ byte2 x.y ++ x.rotation.byte ++ [x.planeByte, x.inkByte] ++ byte1 x.rank ++
    x.source.bytes ++ flag1 x.required ++ packText x.fixedText ++ packText x.fallback ++ x.part.bytes

/-- The ranges of a kind part (R9 to R12). -/
def KindPart.inRange : KindPart → Bool
  | .text _ hs vs m => 1 ≤ hs && hs ≤ 8 && 1 ≤ vs && vs ≤ 8 && 1 ≤ m && m ≤ 64
  | .barcode n w height _ r _ boxWidth =>
    1 ≤ n && n ≤ 8 && 2 * n ≤ w && w ≤ 3 * n && 8 ≤ height && height ≤ 800 && r < n && 16 ≤ boxWidth && boxWidth ≤ 896
  | .box w h border => 1 ≤ w && w ≤ 2400 && 1 ≤ h && h ≤ 2400 && border ≤ 32
  | .stamp n w h => 1 ≤ n && n ≤ 8 && 1 ≤ w && w ≤ 896 && 1 ≤ h && h ≤ 2400

/-- The range of a source's own part (R7). -/
def Source.inRange : Source → Bool
  | .counter _ k => 1 ≤ k && k ≤ 9
  | _ => true

/-- The ranges of a field record (R6 to R12, R15). -/
def Field.inRange (x : Field) : Bool :=
  1 ≤ x.number && x.number ≤ 96 && x.x ≤ 895 && x.y ≤ 2399 && x.rank ≤ 7 && x.fixedText.length ≤ 64 && x.fallback.length ≤ 16 &&
    (x.part.isStamp || (1 ≤ x.planeByte.toNat && x.planeByte.toNat < 16 && x.inkByte.toNat ≤ 1)) && x.part.inRange &&
    x.source.inRange && sourceAllowed x.part x.source x.fixedText && (x.source.isContrib || (!x.required && x.fallback.isEmpty))

/-- A stencil row's four bytes, column 0 in the most significant bit of the first (R16). -/
def rowBytes (r : BitVec 32) : List Byte := byte4 r.toNat

/-- STENCIL-DEF (R16, R171). -/
def Stencil.body (x : Stencil) : List Byte := byte1 x.number ++ byte1 x.rows.length ++ x.rows.flatMap rowBytes

/-- A counter policy's byte (R39, R173). -/
def CounterPolicy.byte : CounterPolicy → List Byte
  | .stop => byte1 0
  | .wrap => byte1 1

/-- COUNTER-SET: number, start value, step, low, high, policy (R40, R173). -/
def counterSetBody (c : CounterNo) (start : Nat) (step : Int) (low high : Nat) (policy : CounterPolicy) : List Byte :=
  byte1 c.val ++ byte4 start ++ signed2 step ++ byte4 low ++ byte4 high ++ policy.byte

/-- The ranges of a counter's definition (R39, R40). -/
def counterInRange (start : Nat) (step : Int) (low high : Nat) : Bool :=
  high ≤ 999999999 && low ≤ high && low ≤ start && start ≤ high && -9999 ≤ step && step ≤ 9999 && step != 0

/-- A class's byte (R174). -/
def JobClass.byte : JobClass → List Byte
  | .normal => byte1 0
  | .rush => byte1 1

/-- JOB-OPEN (R174). -/
def JobOpen.body (r : JobOpen) : List Byte :=
  byte1 r.form ++ byte2 r.total ++ r.cls.byte ++ flag1 r.key.isSome ++ packText (r.key.getD [])

/-- The ranges of JOB-OPEN (R58). -/
def JobOpen.inRange (r : JobOpen) : Bool :=
  1 ≤ r.form && r.form ≤ 32 && 1 ≤ r.total && r.total ≤ 999 && r.key.all validKey

/-- FIELD-DATA: field number, value length, value (R171). -/
def fieldDataBody (n : Nat) (v : Text) : List Byte := byte1 n ++ packText v

/-- CONTRIBUTE (R174). -/
def Contribute.body (r : Contribute) : List Byte := packText r.key ++ byte1 r.field ++ packText r.value

/-- POSITION-WATCH (R171, R182). -/
def PositionWatch.body (w : PositionWatch) : List Byte := byte2 w.job ++ byte2 w.copy ++ byte2 w.line

end Sys2Proof.Machine
end

