-- ==== Sys2Proof/Machine/Ops.lean ====
section
/-! DEFINITION. The named operations over the shared stores: form slots and pools, the queue and its jobs, the value store, the retained
image, and the state a power-up leaves. -/

namespace Sys2Proof.Machine

/-! ### Form slots (chapter 1) -/

/-- The form a slot holds, DEFINING or ACTIVE. -/
def Slot.form? : Slot → Option Form
  | .empty => none
  | .defining f => some f
  | .active f => some f

/-- The form of an ACTIVE slot. -/
def Slot.active? : Slot → Option Form
  | .active f => some f
  | _ => none

/-- The index of a form number 1 to 32. -/
def slotIndex (n : Nat) : Option (Fin 32) := if h : 1 ≤ n ∧ n ≤ 32 then some ⟨n - 1, by omega⟩ else none

/-- The slot with a form number; EMPTY outside 1 to 32. -/
def State.slot (s : State) (n : Nat) : Slot :=
  match slotIndex n with
  | some i => s.slots[i]
  | none => .empty

/-- A slot replaced. -/
def State.setSlot (s : State) (n : Nat) (x : Slot) : State :=
  match slotIndex n with
  | some i => { s with slots := s.slots.set i x }
  | none => s

/-- The ACTIVE form with a number (R1). -/
def State.activeForm (s : State) (n : Nat) : Option Form := (s.slot n).active?

/-- Whether a slot is DEFINING for a port. -/
def Slot.definedBy (p : Port) : Slot → Bool
  | .defining f => f.owner == p
  | _ => false

/-- A port's defining slot: none, or the number of the slot it has in DEFINING (R1). -/
def State.definingSlot (s : State) (p : Port) : Option Nat :=
  ((List.finRange 32).find? (fun i => (s.slots[i]).definedBy p)).map (fun i => i.val + 1)

/-- Field-pool entries a form takes (R5). -/
def Form.fieldsUsed (f : Form) : Nat := f.fields.length

/-- Text-pool characters a form takes (R5). -/
def Form.textUsed (f : Form) : Nat := (f.fields.map (fun x => x.fixedText.length + x.fallback.length)).sum

/-- Stencil rows a form takes (R5). -/
def Form.rowsUsed (f : Form) : Nat := (f.stencils.map (fun x => x.rows.length)).sum

/-- A pool's use, over every slot (R5). -/
def State.poolUsed (s : State) (use : Form → Nat) : Nat := (s.slots.toList.map (fun x => (x.form?).elim 0 use)).sum

/-- Capacities of the three pools (R5). -/
def fieldPool : Nat := 1024
/-- Capacity of the text pool (R5). -/
def textPool : Nat := 24576
/-- Capacity of the stencil row pool (R5). -/
def rowPool : Nat := 1024

/-- The fields, texts and rows pools' free counts (R5, R19). -/
def State.fieldsFree (s : State) : Nat := fieldPool - s.poolUsed Form.fieldsUsed
/-- Free characters of the text pool (R5, R19). -/
def State.textFree (s : State) : Nat := textPool - s.poolUsed Form.textUsed
/-- Free rows of the stencil row pool (R5, R19). -/
def State.rowsFree (s : State) : Nat := rowPool - s.poolUsed Form.rowsUsed

/-- A form's field with a number. -/
def Form.field? (f : Form) (n : Nat) : Option Field := f.fields.find? (fun x => x.number == n)

/-- A form's stencil with a number. -/
def Form.stencil? (f : Form) (n : Nat) : Option Stencil := f.stencils.find? (fun x => x.number == n)

/-! ### The retained image (R50 to R53) -/

/-- The counters of the image rewritten, with a fresh check word (R51). -/
def State.retainCounters (s : State) : State :=
  { s with retained := ({ s.retained.image with counters := s.counters } : Image).sealed }

/-- One form of the image added or dropped, with a fresh check word; only under COUNTERS-AND-FORMS (R51). -/
def State.retainForm (s : State) (n : Nat) (f : Option Form) : State :=
  match s.retained.image.scope, slotIndex n with
  | .countersAndForms, some i =>
    { s with retained := ({ s.retained.image with forms := s.retained.image.forms.set i f } : Image).sealed }
  | _, _ => s

/-- The image under a scope: every ACTIVE form, or none (R52). -/
def State.retainScope (s : State) (scope : Scope) : State :=
  { s with
    retained := ({ s.retained.image with
      scope := scope
      forms := match scope with
        | .counters => Vector.replicate 32 none
        | .countersAndForms => mapVec Slot.active? s.slots } : Image).sealed }

/-! ### The queue (chapter 4) -/

/-- The queued job with a number. -/
def State.job? (s : State) (n : Nat) : Option Job := s.queue.find? (fun j => j.number == n)

/-- The queued job with a carton key (R58, R79). -/
def State.jobWithKey? (s : State) (k : Text) : Option Job := s.queue.find? (fun j => j.key == some k)

/-- The OPEN job of a port (R58, R62). -/
def State.openJob? (s : State) (p : Port) : Option Job := s.queue.find? (fun j => j.origin == p && !j.closed)

/-- A queued job changed. -/
def State.onJob (s : State) (n : Nat) (f : Job → Job) : State :=
  { s with queue := s.queue.map (fun j => if j.number = n then f j else j) }

/-- A form's use count: how many queued jobs name it (R4). -/
def State.useCount (s : State) (n : Nat) : Nat := (s.queue.filter (fun j => j.form == n)).length

/-- Whether a job holds a contribution for a field, or the field carries a fallback mark (R55). -/
def Job.filled (j : Job) (n : Nat) : Bool := j.contribs.any (fun c => c.field == n) || j.marks.contains n

/-- The required CONTRIB fields of a form that a job still lacks (R55). -/
def Form.missing (f : Form) (j : Job) : List Nat :=
  ((f.fields.filter (fun x => x.required && x.source.isContrib)).map Field.number).filter (fun n => !j.filled n)

/-- The required contributions a queued job still lacks (R55, R77). -/
def State.missing (s : State) (j : Job) : List Nat := ((s.activeForm j.form).map (·.missing j)).getD []

/-- A job's state: the first condition of R56's table that holds. -/
def Job.stateWith (j : Job) (lacking : List Nat) : JobState :=
  if !j.closed then .opened
  else if j.cancelled then .draining
  else if j.isHeld then .held
  else if j.composed = 0 then (if lacking.isEmpty then .ready else .assembling)
  else if j.composed < j.total then .active
  else .draining

/-- A queued job's state (R56). -/
def State.jobState (s : State) (j : Job) : JobState := j.stateWith (s.missing j)

/-- Characters of values a job keeps in the value store (R60). -/
def Job.valueChars (j : Job) : Nat :=
  (j.data.map (fun d => d.2.length)).sum + (j.contribs.map (fun c => c.value.length)).sum

/-- Capacity of the value store (R60). -/
def valueStore : Nat := 16384

/-- Characters of the value store in use (R60). -/
def State.valuesUsed (s : State) : Nat :=
  (s.queue.map Job.valueChars).sum + (s.pool.map (fun e => e.value.length)).sum

/-- Free characters of the value store (R60, R77). -/
def State.valuesFree (s : State) : Nat := valueStore - s.valuesUsed

/-- Whether the value store can take a new value in place of `old` characters (R61, R81). -/
def State.storeTakes (s : State) (old new : Nat) : Bool := new ≤ s.valuesFree + old

/-- A job takes leave of the queue: its record goes, and watches armed on it are disarmed without an event. Its form's use count, its
values, number and key come free with the record (R74). -/
def State.leaveQueue (s : State) (n : Nat) : State :=
  { s with
    queue := s.queue.filter (fun j => j.number != n)
    ports := mapVec (fun q => { q with watch := q.watch.filter (fun w => w.job != n) }) s.ports }

/-- Where a RUSH job goes: after the last job that is RUSH or has copies composed, else at the head (R59). -/
def rushPlace : List Job → Nat
  | [] => 0
  | j :: rest =>
    if 0 < rushPlace rest then rushPlace rest + 1
    else if j.cls = .rush ∨ 0 < j.composed then 1 else 0

/-- A new job placed in the queue by its class (R59). -/
def placeJob (j : Job) (queue : List Job) : List Job :=
  match j.cls with
  | .normal => queue ++ [j]
  | .rush => queue.take (rushPlace queue) ++ j :: queue.drop (rushPlace queue)

/-- The number after a job number; 4,095 is followed by 1 (R57). -/
def nextNumber (n : Nat) : Nat := if 4095 ≤ n then 1 else n + 1

/-- The first number from `n` on that no queued job holds, looked for at most `fuel` times (R57). -/
def freeNumber (queue : List Job) : Nat → Nat → Nat
  | 0, n => n
  | fuel + 1, n => if queue.any (fun j => j.number == n) then freeNumber queue fuel (nextNumber n) else n

/-! ### Power-up (R186) -/

/-- The state a power-up leaves: volatile things at their power-up values, counters and forms as the judged retained area gives them
back, the fault set by the lid (R21, R53, R186). -/
def State.powerOn (s : State) (retained : Retained) (lost lidOpen : Bool) : State :=
  { State.reset with
    pending := s.pending
    freeTick := s.freeTick
    retained := retained
    retainedLost := lost
    counters := retained.image.counters
    slots := match retained.image.scope with
      | .counters => Vector.replicate 32 .empty
      | .countersAndForms => mapVec (fun f => f.elim Slot.empty Slot.active) retained.image.forms
    engine := { Engine.reset with faults := FaultSet.none.put .headOpen lidOpen } }

end Sys2Proof.Machine
end

