-- ==== Sys2Proof/Machine/Ring.lean ====
section
/-! DEFINITION. The band ring, labels in flight, completion reports and label ends, the redo list and the ring flush (R73 to R76, R96 to
R99, R112 to R117, R154, R181). -/

namespace Sys2Proof.Machine

/-! ### Completion reports (R75, R76, R181) -/

/-- Whether a filter matches a key: every cared position is in the key and agrees with the pattern (R181). -/
def Filter.matches (f : Filter) (key : Text) : Bool :=
  (List.range 5).all fun k => !f.care.getLsbD k || (k < key.length && key[k]? == f.pattern[k]?)

/-- The two filter results combined (R181). -/
def Combine.apply : Combine → Bool → Bool → Bool
  | .and, a, b => a && b
  | .or, a, b => a || b
  | .nand, a, b => !(a && b)
  | .nor, a, b => !(a || b)

/-- Whether a port's watch wants the report of a job with this key (R181). -/
def PortSettings.wants (t : PortSettings) (key : Option Text) : Bool :=
  match key with
  | none => false
  | some k => t.watch && t.combine.apply (t.filter1.matches k) (t.filter2.matches k)

/-- A completion report placed on the origin port's list and on that of every other port whose watch matches (R76, R181). -/
def State.placeCompletion (s : State) (c : Completion) : State :=
  (List.finRange 4).foldl
    (fun s p => if p = c.origin || (s.port p).settings.wants c.key then s.onPort p (·.place (.completion c)) else s) s

/-! ### Buffers and labels in flight -/

/-- One buffer of the ring. -/
def State.buffer (s : State) (i : Fin 8) : Buffer := s.ring.buffers[i]

/-- One buffer of the ring changed. -/
def State.onBuffer (s : State) (i : Fin 8) (f : Buffer → Buffer) : State :=
  { s with ring := { s.ring with buffers := s.ring.buffers.set i (f s.ring.buffers[i]) } }

/-- Whether a buffer holds a band of a label. -/
def Buffer.holds (b : Buffer) (job copy : Nat) : Bool :=
  b.state != .free && b.record.any (fun r => r.job == job && r.copy == copy)

/-- Whether a band of a label is in the ring (R99). -/
def State.inRing (s : State) (job copy : Nat) : Bool := s.ring.buffers.toList.any (·.holds job copy)

/-- Whether a label is at the head (R72, R99, R142). -/
def State.atHead (s : State) (job copy : Nat) : Bool := s.engine.heads.any (fun h => h.job == job && h.copy == copy)

/-- Whether the composer has a label in hand (R99). -/
def State.inHand (s : State) (job copy : Nat) : Bool := s.hand.any (fun h => h.job == job && h.copy == copy)

/-- Whether a label off the redo list is still in flight (R99). -/
def State.holdsLabel (s : State) (job copy : Nat) : Bool := s.inHand job copy || s.inRing job copy || s.atHead job copy

/-- The label record of a label (R99). -/
def State.label? (s : State) (job copy : Nat) : Option LabelRecord := s.labels.find? (fun l => l.job == job && l.copy == copy)

/-- How many labels are in flight (R99). -/
def State.labelsInFlight (s : State) : Nat := s.labels.length + s.redo.length

/-- Whether any label of a job is in flight (R72, R99). -/
def State.jobInFlight (s : State) (n : Nat) : Bool :=
  s.labels.any (fun l => l.job == n) || s.redo.any (fun e => e.job == n)

/-- Whether a queued job's cancelled flag is set. -/
def State.isCancelled (s : State) (n : Nat) : Bool := (s.job? n).any (·.cancelled)

/-- A label record given up. -/
def State.dropLabel (s : State) (job copy : Nat) : State :=
  { s with labels := s.labels.filter (fun l => !(l.job == job && l.copy == copy)) }

/-- Labels that are no longer in flight lose their record, and cancelled jobs with no label in flight leave the queue (R72, R99). -/
def State.settle (s : State) : State :=
  let s := { s with labels := s.labels.filter (fun l => s.holdsLabel l.job l.copy) }
  (s.queue.filter (fun j => j.cancelled && !s.jobInFlight j.number)).foldl (fun s j => s.leaveQueue j.number) s

/-! ### Label ends (R73, R75, R154) -/

/-- The completion report of a label (R75). -/
def completionOf (j : Job) (l : LabelRecord) (outcome : LabelOutcome) (mismatch : Bool) : Completion where
  job := j.number
  origin := j.origin
  key := j.key
  form := j.form
  copy := l.copy
  total := j.total
  outcome := outcome
  values := l.values
  pauses := l.pauses
  masked := l.masked
  fallbacks := l.fallbacks
  truncations := l.truncations
  symbolErrors := l.symbolErrors
  mismatch := mismatch

/-- The report of a MERGE-VOID (R75, R91). -/
def mergeVoidReport (j : Job) : Completion :=
  completionOf j ⟨j.number, 0, [], 0, 0, 0, 0, 0⟩ .mergeVoid false

/-- Whether an outcome counts a copy as completed (R73). -/
def LabelOutcome.completes : LabelOutcome → Bool
  | .printed => true
  | .dry => true
  | _ => false

/-- The queue takes a label end: the report goes out, copies completed is raised for PRINTED and DRY, and the job leaves when its last
copy has ended, or when it is cancelled and no label of it is in flight (R72, R73, R76). -/
def State.endLabel (s : State) (job copy : Nat) (outcome : LabelOutcome) (mismatch : Bool) : State :=
  let off (s : State) : State :=
    (s.dropLabel job copy).onEngine fun e => { e with heads := e.heads.filter (fun h => !(h.job == job && h.copy == copy)) }
  match s.job? job, s.label? job copy with
  | some j, some l =>
    let s := off (s.placeCompletion (completionOf j l outcome mismatch))
    let s := if outcome.completes then s.onJob job (fun j => { j with completed := j.completed + 1 }) else s
    let s := if outcome.completes && j.completed + 1 == j.total then s.leaveQueue job else s
    s.settle
  | _, _ => off s

/-! ### The redo list and the flush (R114 to R116) -/

/-- The redo entry of a label in flight (R115). -/
def State.redoEntry? (s : State) (job copy : Nat) : Option RedoEntry :=
  (s.label? job copy).map fun l => { job := job, copy := copy, values := l.values }

/-- The labels with a band in the ring, oldest band first from the take position (R115). -/
def State.ringLabels (s : State) : List (Nat × Nat) :=
  (List.finRange 8).filterMap fun k =>
    let b := s.buffer (s.ring.take + k)
    if b.state = .free then none else b.record.map (fun r => (r.job, r.copy))

/-- A list with each member kept at its first place only. -/
def firstOnly {α : Type} [DecidableEq α] (l : List α) : List α :=
  l.foldl (fun acc x => if x ∈ acc then acc else acc ++ [x]) []

/-- The redo entries a flush makes: the label ended with it, the labels in the ring, the label in hand; none for a cancelled job. A label
still at the head has burned all its lines and has no band in the ring (R115, R142); the filter says so. -/
def State.flushEntries (s : State) (first : Option RedoEntry) : List RedoEntry :=
  let ids := firstOnly (s.ringLabels ++ (s.hand.map (fun h => (h.job, h.copy))).toList)
  let ids := ids.filter (fun i => !(s.isCancelled i.1) && !(s.atHead i.1 i.2) && first.all (fun e => !(e.job == i.1 && e.copy == i.2)))
  first.toList ++ ids.filterMap (fun i => s.redoEntry? i.1 i.2)

/-- A ring flush: every buffer FREE, both positions at buffer 0, the composer's label dropped, and the labels put at the front of the
redo list (R114, R115). -/
def State.flush (s : State) (first : Option RedoEntry) : State :=
  State.settle { s with ring := .empty, hand := none, redo := s.flushEntries first ++ s.redo }

/-! ### Positions (R98) -/

/-- The take position moves on, 7 being followed by 0 (R98). -/
def State.advanceTake (s : State) : State := { s with ring := { s.ring with take := s.ring.take + 1 } }

/-- The buffer at the take position becomes BURNING (R98). -/
def State.markBurning (s : State) : State := s.onBuffer s.ring.take (fun b => { b with state := .burning })

/-- The engine takes the buffer at the take position for its lines: it becomes BURNING and the take position moves on (R98). -/
def State.takeBand (s : State) : State := s.markBurning.advanceTake

/-- A buffer freed: it holds nothing (R96, R98). -/
def State.freeBuffer (s : State) (i : Fin 8) : State := s.onBuffer i (fun _ => .empty)

/-- The take position moves on if this is the moment for it (R98, R156). -/
def State.advanceTakeIf (s : State) (now : Bool) : State :=
  { s with ring := { s.ring with take := if now then s.ring.take + 1 else s.ring.take } }

/-- The buffer at the take position taken for consumption in DRY: it becomes BURNING, and the take position moves on now or when the band is
done with (R98, R156; log 19). -/
def State.takeDryBand (s : State) : State := s.markBurning.advanceTakeIf Config.dryMovesAtTaking

/-- The BURNING buffer of DRY done with: it is freed, and the take position moves on if it did not move at the taking (R98, R156, R159;
log 19). -/
def State.freeDryBand (s : State) (i : Fin 8) : State := (s.freeBuffer i).advanceTakeIf (!Config.dryMovesAtTaking)

/-- A VOID band skipped: the buffer at the take position is freed and the take position moves on (R98, R113, R156). -/
def State.skipBand (s : State) : State := (s.freeBuffer s.ring.take).advanceTake

/-- The FULL band at the take position. -/
def State.takeFull? (s : State) : Option BandRecord :=
  let b := s.buffer s.ring.take
  if b.state = .full then b.record else none

/-- The BURNING buffer, if any (R98). -/
def State.burning? (s : State) : Option (Fin 8) := (List.finRange 8).find? (fun i => (s.buffer i).state == .burning)

/-- The FILLING buffer, if any (R98). -/
def State.filling? (s : State) : Option (Fin 8) := (List.finRange 8).find? (fun i => (s.buffer i).state == .filling)

/-- VOID bands at the take position of labels not at the head are freed without motion, at most `fuel` of them (R113). -/
def skipVoidFuel : Nat → State → State
  | 0, s => s
  | fuel + 1, s =>
    match s.takeFull? with
    | some r =>
      if r.void && !s.atHead r.job r.copy then
        skipVoidFuel fuel s.skipBand.settle
      else s
    | none => s

/-- The run of VOID bands at the take position freed (R113). -/
def State.skipVoid (s : State) : State := skipVoidFuel 8 s

/-- The band 0 of a label, FULL and not VOID, at the take position (R141). -/
def State.readyBand? (s : State) : Option BandRecord :=
  s.takeFull?.filter (fun r => r.band == 0 && !r.void)

/-- A cancel in flight, on the ring, the composer, the redo list and the job record (R72, R112). The engine's part follows apart. -/
def State.cancelInRing (s : State) (n : Nat) : State :=
  let s :=
    if s.hand.any (fun h => h.job == n) then
      match s.filling? with
      | some i => let s' := s.freeBuffer i; { s' with hand := none, ring := { s'.ring with fill := i } }
      | none => { s with hand := none }
    else s
  { s with
    ring := { s.ring with
      buffers := mapVec (fun b =>
        if b.state = .full then { b with record := b.record.map (fun r => if r.job = n then { r with void := true } else r) } else b)
        s.ring.buffers }
    redo := s.redo.filter (fun e => e.job != n)
    ports := mapVec (fun q => { q with watch := q.watch.filter (fun w => w.job != n) }) s.ports
    queue := s.queue.map (fun j =>
      if j.number = n then
        { j with operator := false, mergeTimeout := false, counterHold := none, timer := none, cancelled := true }
      else j) }

end Sys2Proof.Machine
end

