-- ==== Sys2Proof/Machine/Symbols.lean ====
section
/-! DEFINITION. Symbols and text: a field's content, its frame and its ink dots (chapter 2, and the stencil tiling of R107). -/

namespace Sys2Proof.Machine

/-! ### Fonts (R25) -/

/-- A font's cell: width and height in dots (R25). -/
def Font.cell : Font → Nat × Nat
  | .s => (10, 16)
  | .m => (14, 24)
  | .l => (20, 32)

/-- Whether dot (u, v) of a box w wide and h high is ink: a border of 0 fills the box (R11, R38). -/
def boxInk (w h border u v : Nat) : Bool :=
  border = 0 || u < border || w ≤ u + border || v < border || h ≤ v + border

/-- Whether a dot is ink of a box that stands somewhere in a cell. -/
def BoxShape.ink (b : BoxShape) (col line : Nat) : Bool :=
  b.left ≤ col && col < b.left + b.width && b.top ≤ line && line < b.top + b.height &&
    boxInk b.width b.height b.border (col - b.left) (line - b.top)

/-- The box of a font's substitute glyph, brought into the font's cell (R25; log 1). -/
def Font.substituteBox (font : Font) : BoxShape :=
  let b := Config.substitute font
  let left := b.left % font.cell.1
  let top := b.top % font.cell.2
  { left := left, top := top, width := 1 + b.width % (font.cell.1 - left), height := 1 + b.height % (font.cell.2 - top),
    border := b.border }

/-- Whether the character ROM would give a character the substitute glyph, dot for dot. R25 says that it gives none. -/
def romGivesSubstitute (font : Font) (c : Byte) : Bool :=
  (List.range font.cell.1).all fun col => (List.range font.cell.2).all fun line =>
    Config.glyph font c col line == font.substituteBox.ink col line

/-- The glyph of a printable character. Where the free ROM would give the substitute glyph, dot (0, 0) is turned over: so every ROM that
R25 allows, and no other, is a value of the two constants (R25; log 1). -/
def printableInk (font : Font) (c : Byte) (col line : Nat) : Bool :=
  Config.glyph font c col line != (col == 0 && line == 0 && romGivesSubstitute font c)

/-- Whether dot (column, line) of a character's glyph is ink: the space has none, a code outside 32 to 126 takes the substitute glyph,
and the rest comes from the character ROM (R25). -/
def glyphInk (font : Font) (c : Byte) (col line : Nat) : Bool :=
  if c.toNat = 32 then false
  else if 32 ≤ c.toNat && c.toNat ≤ 126 then printableInk font c col line
  else font.substituteBox.ink col line

/-! ### Contents (R7, R22, R28, R29) -/

/-- The character of a decimal digit. -/
def digitChar (d : Nat) : Byte := BitVec.ofNat 8 (48 + d % 10)

/-- The last `k` decimal digits of a number, leading zeros included (R28). -/
def digitsOf : Nat → Nat → Text
  | 0, _ => []
  | k + 1, n => digitsOf k (n / 10) ++ [digitChar n]

/-- How many decimal digits a number below 10,000 has, without leading zeros. -/
def digitCount (n : Nat) : Nat := if n < 10 then 1 else if n < 100 then 2 else if n < 1000 then 3 else 4

/-- A COPY-INDEX content: n/m (R29). -/
def copyIndexText (n m : Nat) : Text := digitsOf (digitCount n) n ++ [47#8] ++ digitsOf (digitCount m) m

/-- A field's content for a label, none when absent, and whether R28 shortened it (R7, R22). -/
def fieldContent (j : Job) (values : Values) (copy : Nat) (f : Field) : Option Text × Bool :=
  match f.source with
  | .fixed => (some f.fixedText, false)
  | .job => ((j.data.find? (fun d => d.1 == f.number)).map (·.2), false)
  | .contrib _ =>
    match j.contribs.find? (fun c => c.field == f.number) with
    | some c => (some c.value, false)
    | none => (if j.marks.contains f.number && !f.fallback.isEmpty then some f.fallback else none, false)
  | .counter c k =>
    match values.find? (fun v => v.1 == c) with
    | some v => (some (digitsOf k v.2), 10 ^ k ≤ v.2)
    | none => (none, false)
  | .copyIndex => (some (copyIndexText copy j.total), false)

/-! ### Interleaved two-of-five (R30 to R37) -/

/-- The values of a content of digits; none if any character is not a digit (R30). -/
def digitValues (t : Text) : Option (List Nat) :=
  if t.all (fun c => 48 ≤ c.toNat && c.toNat ≤ 57) then some (t.map (fun c => c.toNat - 48)) else none

/-- The weighted sum of digits taken from the right, weights 3, 1, 3, 1 and so on (R31). -/
def mod10Sum : Nat → List Nat → Nat
  | _, [] => 0
  | w, d :: rest => d * w + mod10Sum (4 - w) rest

/-- The MOD10 check digit (R31). -/
def mod10Digit (data : List Nat) : Nat := (10 - mod10Sum 3 data.reverse % 10) % 10

/-- The encoded digits: check digit appended, then a 0 in front of an odd count (R31). -/
def encodedDigits (mod10 : Bool) (data : List Nat) : List Nat :=
  let l := if mod10 then data ++ [mod10Digit data] else data
  if l.length % 2 = 1 then 0 :: l else l

/-- The five elements of a digit, true for wide (R32). -/
def digitPattern (d : Nat) : List Bool :=
  match d with
  | 0 => [false, false, true, true, false]
  | 1 => [true, false, false, false, true]
  | 2 => [false, true, false, false, true]
  | 3 => [true, true, false, false, false]
  | 4 => [false, false, true, false, true]
  | 5 => [true, false, true, false, false]
  | 6 => [false, true, true, false, false]
  | 7 => [false, false, false, true, true]
  | 8 => [true, false, false, true, false]
  | _ => [false, true, false, true, false]

/-- An element: whether it is a bar, and its width. -/
abbrev Element := Bool × Nat

/-- The width of an element (R32). -/
def elementWidth (n w : Nat) (wide : Bool) : Nat := if wide then w else n

/-- The ten elements of a pair of digits, bars of the first and spaces of the second in turn (R32). -/
def pairElements (n w a b : Nat) : List Element :=
  (List.zip (digitPattern a) (digitPattern b)).flatMap fun e =>
    [(true, elementWidth n w e.1), (false, elementWidth n w e.2)]

/-- The elements of the pairs, in order (R32). -/
def pairsElements (n w : Nat) : List Nat → List Element
  | a :: b :: rest => pairElements n w a b ++ pairsElements n w rest
  | _ => []

/-- The whole symbol, quiet zones included (R32). -/
def symbolElements (n w : Nat) (digits : List Nat) : List Element :=
  [(false, 10 * n), (true, n), (false, n), (true, n), (false, n)] ++ pairsElements n w digits ++
    [(true, w), (false, n), (true, n), (false, 10 * n)]

/-- The total width of the symbol (R33). -/
def symbolWidth (n w digits : Nat) : Nat := 20 * n + 4 * n + digits / 2 * (6 * n + 4 * w) + (w + 2 * n)

/-- The bars from a column on, each as its first column and its drawn width, less the bar reduction (R34). -/
def barsFrom (r : Nat) : Nat → List Element → List (Nat × Nat)
  | _, [] => []
  | x, (bar, width) :: rest =>
    if bar then (x, width - r) :: barsFrom r (x + width) rest else barsFrom r (x + width) rest

/-- The first column of the human-readable line; the half is rounded toward the lower number (R37). -/
def readableStart (n width digits : Nat) : Int :=
  10 * (n : Int) + (((width : Int) - 20 * n) - 10 * (digits : Int)) / 2

/-! ### Rendered fields -/

/-- A field rendered for a label: what it draws, or nothing (R22, R23). -/
inductive Rendered
  | nothing
  | text (font : Font) (hscale vscale : Nat) (chars : Text)
  | barcode (width height : Nat) (bars : List (Nat × Nat)) (readable : Option (Int × Text))
  | box (width height border : Nat)
  | stamp (width height : Nat) (rows : List (BitVec 32))
  deriving DecidableEq, Repr

/-- The frame of a rendered field: columns and lines (R23, R27, R33, R36, R38, R107). -/
def Rendered.frame : Rendered → Nat × Nat
  | .nothing => (0, 0)
  | .text font hs vs chars => (chars.length * font.cell.1 * hs, font.cell.2 * vs)
  | .barcode width height _ readable => (width, if readable.isSome then height + 18 else height)
  | .box w h _ => (w, h)
  | .stamp w h _ => (w, h)

/-- Whether a rendered field draws (R105). -/
def Rendered.draws : Rendered → Bool
  | .nothing => false
  | _ => true

/-- The ink of a line of characters at a column of its own and a line of its cells (R27, R37). -/
def textInk (font : Font) (hs vs : Nat) (chars : Text) (u v : Nat) : Bool :=
  match chars[u / (font.cell.1 * hs)]? with
  | none => false
  | some c => glyphInk font c (u % (font.cell.1 * hs) / hs) (v / vs)

/-- Whether frame dot (u, v), within the frame, is an ink dot (R27, R34, R36 to R38, R107). -/
def Rendered.ink (r : Rendered) (u v : Nat) : Bool :=
  match r with
  | .nothing => false
  | .text font hs vs chars => textInk font hs vs chars u v
  | .barcode _ height bars readable =>
    if v < height then bars.any (fun b => b.1 ≤ u && u < b.1 + b.2)
    else
      match readable with
      | none => false
      | some (start, chars) =>
        height + 2 ≤ v && start ≤ (u : Int) && textInk .s 1 1 chars ((u : Int) - start).toNat (v - (height + 2))
  | .box w h border => boxInk w h border u v
  | .stamp _ _ rows =>
    match rows[v % rows.length]? with
    | none => false
    | some row => !row.getMsbD (u % 32)

/-- A BARCODE rendered: nothing and a symbol error when its data or its width will not do (R30, R31, R35). -/
def renderBarcode (n w height : Nat) (mod10 : Bool) (r : Nat) (readable : Bool) (boxWidth : Nat) (t : Text) : Rendered × Bool :=
  match digitValues t with
  | none => (.nothing, true)
  | some data =>
    let digits := encodedDigits mod10 data
    let width := symbolWidth n w digits.length
    if 48 < digits.length || boxWidth < width then (.nothing, true)
    else
      (.barcode width height (barsFrom r 0 (symbolElements n w digits))
        (if readable then some (readableStart n width digits.length, digits.map digitChar) else none), false)

/-- What rendering a field for a label gives: what it draws, whether it raises the truncation count, and whether it raises the
symbol-error count (R22 to R38, R107). -/
structure Rendering where
  drawn       : Rendered
  truncated   : Bool
  symbolError : Bool
  deriving DecidableEq, Repr

/-- A field rendered from its content (R22 to R38, R107). -/
def renderField (form : Form) (content : Option Text × Bool) (f : Field) : Rendering :=
  match f.part with
  | .box w h border => ⟨.box w h border, false, false⟩
  | .stamp n w h =>
    let draws := match f.source with
      | .contrib _ => content.1 == some [89#8]
      | _ => true
    if draws then ⟨.stamp w h (((form.stencil? n).map Stencil.rows).getD []), false, false⟩ else ⟨.nothing, false, false⟩
  | .text font hs vs m =>
    match content.1 with
    | none => ⟨.nothing, false, false⟩
    | some [] => ⟨.nothing, false, false⟩
    | some t => ⟨.text font hs vs (t.take m), content.2 || m < t.length, false⟩
  | .barcode n w height mod10 r readable boxWidth =>
    match content.1 with
    | none => ⟨.nothing, false, false⟩
    | some [] => ⟨.nothing, false, false⟩
    | some t =>
      let b := renderBarcode n w height mod10 r readable boxWidth t
      ⟨b.1, content.2, b.2⟩

/-- The frame dot that rotation carries to a box position, if any (R23): the table of R23 read backwards. -/
def unrotate (rotation : Rotation) (frame : Nat × Nat) (col line : Nat) : Option (Nat × Nat) :=
  match rotation with
  | .deg0 => if col < frame.1 ∧ line < frame.2 then some (col, line) else none
  | .deg90 => if col < frame.2 ∧ line < frame.1 then some (line, frame.2 - 1 - col) else none
  | .deg180 => if col < frame.1 ∧ line < frame.2 then some (frame.1 - 1 - col, frame.2 - 1 - line) else none
  | .deg270 => if col < frame.2 ∧ line < frame.1 then some (frame.1 - 1 - line, col) else none

/-- The box position rotation carries a frame dot to (R23). -/
def rotate (rotation : Rotation) (frame : Nat × Nat) (u v : Nat) : Nat × Nat :=
  match rotation with
  | .deg0 => (u, v)
  | .deg90 => (frame.2 - 1 - v, u)
  | .deg180 => (frame.1 - 1 - u, frame.2 - 1 - v)
  | .deg270 => (v, frame.1 - 1 - u)

end Sys2Proof.Machine
end

