-- ==== Sys2Proof/Machine/Compose.lean ====
section
/-! DEFINITION. Composition: label starts with their snapshot and counter draws, the dot write rule, the band fill and the band check
value (R44 to R49, R65 to R67, R97, R100 to R111). -/

namespace Sys2Proof.Machine

/-! ### Drawing from the counters (R44 to R49) -/

/-- The counters a form needs, in counter-number order (R45). -/
def Form.counters (f : Form) : List CounterNo :=
  (List.finRange 8).filter fun c => f.fields.any fun x =>
    match x.source with
    | .counter d _ => d == c
    | _ => false

/-- Whether a counter can give a value (R44). -/
def canGive (c : Option Counter) : Bool := c.any (fun k => !k.exhausted)

/-- The lowest-numbered needed counter that is UNDEFINED or exhausted (R46). -/
def State.lackingCounter (s : State) (f : Form) : Option CounterNo := f.counters.find? (fun c => !canGive s.counters[c])

/-- A counter after giving its value (R44). -/
def Counter.afterDraw (k : Counter) : Counter :=
  let sum := (k.value : Int) + k.step
  if (k.low : Int) ≤ sum ∧ sum ≤ (k.high : Int) then { k with value := sum.toNat }
  else
    match k.policy with
    | .stop => { k with exhausted := true }
    | .wrap => { k with value := if 0 < k.step then k.low else k.high }

/-- One counter drawn: it advances, and COUNTER-EXHAUSTED goes to its owner when this draw exhausts it (R44, R47). -/
def State.drawOne (s : State) (c : CounterNo) : State :=
  match s.counters[c] with
  | none => s
  | some k =>
    let s := { s with counters := s.counters.set c (some k.afterDraw) }
    if k.afterDraw.exhausted && !k.exhausted then s.post k.owner .counterExhausted else s

/-- The values needed counters would give, in counter-number order (R45, R49). -/
def State.counterValues (s : State) (f : Form) : Values :=
  f.counters.filterMap fun c => (s.counters[c]).map fun k => (c, k.value)

/-- Every needed counter drawn once, and the retained counters rewritten (R45, R51); a form that needs none draws nothing. -/
def State.drawAll (s : State) (f : Form) : State :=
  if f.counters.isEmpty then s else (f.counters.foldl (fun s c => s.drawOne c) s).retainCounters

/-- A failed draw or preview: the job is held for the counter, and JOB-HELD goes to its origin. A failed draw on an exhausted counter
also posts COUNTER-EXHAUSTED to its owner; a failed preview, taken in DRY, does not (R46, R47, R49; log 7: DEDUCED). JOB-HELD is posted
first (log 29: DESIGN CHOICE). -/
def State.drawFails (s : State) (j : Job) (c : CounterNo) : State :=
  let s := s.onJob j.number (fun j => { j with counterHold := some c })
  let s := s.post j.origin .jobHeld
  match s.counters[c] with
  | some k => if k.exhausted && s.engine.mode != .dry then s.post k.owner .counterExhausted else s
  | none => s

/-! ### What the composer takes next (R65, R66) -/

/-- Whether a job is blocked by the jobs ahead of it: STRICT, and an earlier one of its port OPEN, ASSEMBLING or HELD (R66). -/
def State.blocked (s : State) (ahead : List Job) (j : Job) : Bool :=
  (s.port j.origin).settings.sequence == .strict &&
    ahead.any (fun k => k.origin == j.origin && [JobState.opened, .assembling, .held].contains (s.jobState k))

/-- The first job of a stretch of the queue that is READY or ACTIVE and not blocked, given the jobs ahead of the stretch (R65). -/
def State.nextJobAfter (s : State) : List Job → List Job → Option Job
  | _, [] => none
  | ahead, j :: rest =>
    if [JobState.ready, .active].contains (s.jobState j) && !s.blocked ahead j then some j
    else s.nextJobAfter (ahead ++ [j]) rest

/-- The job whose next copy the Print Queue offers (R65). -/
def State.nextNewCopy (s : State) : Option Job := s.nextJobAfter [] s.queue

/-! ### Label starts (R100, R101) -/

/-- The label snapshot: every port's plane mask and stamp planes (R100). -/
def State.snapshot (s : State) : Vector PortPlanes 4 :=
  mapVec (fun q => { mask := q.settings.planeMask, stamp := q.settings.stampPlanes }) s.ports

/-- A label in hand with its label record, about to fill band 0 (R100, R101). -/
def State.beginLabel (s : State) (job copy : Nat) (values : Values) : State :=
  let fallbacks := ((s.job? job).map (·.marks.length)).getD 0
  { s with
    hand := some { job := job, copy := copy, snapshot := s.snapshot, nextBand := 0 }
    labels := s.labels ++ [{
      job := job, copy := copy, values := values, truncations := 0, symbolErrors := 0, masked := 0, fallbacks := fallbacks,
      pauses := 0 }] }

/-- A label start from the first redo entry (R65, R101). -/
def State.startRedo (s : State) (e : RedoEntry) (rest : List RedoEntry) : State :=
  { s with redo := rest }.beginLabel e.job e.copy e.values

/-- A label start that gives a new copy of a job; a failed draw or preview holds the job instead (R46, R49, R67, R100). -/
def State.startCopy (s : State) (j : Job) : State :=
  match s.activeForm j.form with
  | none => s
  | some f =>
    match s.lackingCounter f with
    | some c => s.drawFails j c
    | none =>
      let values := s.counterValues f
      let s := if s.engine.mode = .dry then s else s.drawAll f
      (s.onJob j.number (fun j => { j with composed := j.composed + 1 })).beginLabel j.number (j.composed + 1) values

/-- Whether the composer asks: the engine is not UNSET, no label is in hand, and the redo list is not empty or fewer than eight labels
are in flight (R99). -/
def State.composerAsks (s : State) : Bool :=
  s.engine.mode != .unset && s.hand.isNone && (!s.redo.isEmpty || s.labelsInFlight < 8)

/-- The Print Queue's answer to an asking, taken (R65). -/
def State.answerAsk (s : State) : State :=
  match s.redo with
  | e :: rest => s.startRedo e rest
  | [] =>
    match s.nextNewCopy with
    | some j => s.startCopy j
    | none => s

/-! ### Taking a buffer (R97, R102) -/

/-- The band record of band `b` of a label of length L (R97, R102). -/
def bandRecord (job copy b length : Nat) : BandRecord :=
  let count := min 64 (length - 64 * b)
  { job := job, copy := copy, band := b, first := 64 * b, count := count, last := 64 * b + count == length, void := false, check := 0#16 }

/-- The composer takes the buffer at the fill position for the next band of its label, if it is FREE and no band is being filled
(R102). -/
def State.takeBuffer (s : State) : State :=
  match s.hand with
  | none => s
  | some h =>
    match s.filling?, (s.job? h.job).bind (fun j => s.activeForm j.form) with
    | none, some f =>
      if (s.buffer s.ring.fill).state = .free then
        let s' := s.onBuffer s.ring.fill fun _ =>
          { state := .filling, record := some (bandRecord h.job h.copy h.nextBand f.length), cells := [] }
        { s' with ring := { s'.ring with fill := s'.ring.fill + 1 }, hand := some { h with nextBand := h.nextBand + 1 } }
      else s
    | _, _ => s

/-! ### Writing dots (R104 to R108) -/

/-- The port a field writes for (R104). -/
def actingPort (j : Job) (f : Field) : Port :=
  match f.source with
  | .contrib p => p
  | _ => j.origin

/-- The planes a field's ink dots touch (R105). -/
def effectivePlanes (snapshot : Vector PortPlanes 4) (j : Job) (f : Field) : Planes :=
  let p := snapshot[actingPort j f]
  (if f.part.isStamp then p.stamp else f.planeByte.setWidth 4) &&& p.mask

/-- Whether a field removes its planes: ink CLEAR, but a STAMP always writes with SET (R6, R106). -/
def Field.clears (f : Field) : Bool := !f.part.isStamp && f.inkByte != 0#8

/-- A field ready to write dots of a label: what it draws, where, and how. -/
structure DrawnField where
  drawn    : Rendered
  x        : Nat
  y        : Nat
  rotation : Rotation
  planes   : Planes
  clears   : Bool
  rank     : Nat
  deriving DecidableEq, Repr

/-- Whether a label dot is an ink dot of a placed field (R23, R108). -/
def DrawnField.inks (d : DrawnField) (x y : Nat) : Bool :=
  d.x ≤ x && d.y ≤ y &&
    match unrotate d.rotation d.drawn.frame (x - d.x) (y - d.y) with
    | none => false
    | some (u, v) => d.drawn.ink u v

/-- The dot write rule (R106). -/
def writeDot (c : Cell) (planes : Planes) (clears : Bool) (rank : Nat) : Cell :=
  if rank < c.rank then c
  else { planes := if clears then c.planes &&& ~~~planes else c.planes ||| planes, rank := rank }

/-- A cleared dot (R103). -/
def Cell.blank : Cell := { planes := 0#4, rank := 0 }

/-- A label dot after every field of the list, in order (R103, R106). -/
def composeDot (fields : List DrawnField) (x y : Nat) : Cell :=
  fields.foldl (fun c d => if d.inks x y then writeDot c d.planes d.clears d.rank else c) .blank

/-- Whether a rendered field is masked: it draws, and its effective planes are empty (R105). -/
def isMasked (r : Rendering) (planes : Planes) : Bool := r.drawn.draws && planes == 0#4

/-- A label's fields rendered, each with its effective planes (R103 to R105, R109). -/
def renderLabel (form : Form) (j : Job) (values : Values) (copy : Nat) (snapshot : Vector PortPlanes 4) :
    List (Field × Rendering × Planes) :=
  form.fields.map fun f => (f, renderField form (fieldContent j values copy f) f, effectivePlanes snapshot j f)

/-- The fields that write dots: those not masked (R105). -/
def drawnFields (l : List (Field × Rendering × Planes)) : List DrawnField :=
  (l.filter (fun e => !isMasked e.2.1 e.2.2)).map fun e =>
    { drawn := e.2.1.drawn, x := e.1.x, y := e.1.y, rotation := e.1.rotation, planes := e.2.2, clears := e.1.clears, rank := e.1.rank }

/-- The dots of a band: 64 lines of D dots; only dots within the band's lines and the label width are written (R103, R108). -/
def bandCells (dots width : Nat) (fields : List DrawnField) (r : BandRecord) : List (List Cell) :=
  (List.range 64).map fun i => (List.range dots).map fun x =>
    if i < r.count ∧ x < width then composeDot fields x (r.first + i) else .blank

/-! ### Burn bits and the check value (R110, R111) -/

/-- Whether a dot burns (R110). -/
def Cell.burns (printPlanes : Planes) (c : Cell) : Bool := c.planes &&& printPlanes != 0#4

/-- One bit taken by the check register (R111). -/
def crcBit (reg : BitVec 16) (bit : Bool) : BitVec 16 :=
  if reg.msb != bit then (reg <<< 1) ^^^ 0x1021#16 else reg <<< 1

/-- The check value over a run of bits (R111). -/
def crcBits (bits : List Bool) : BitVec 16 := bits.foldl crcBit 0xFFFF#16

/-- The bits of a byte from bit 7 down (R111). -/
def byteBits (b : Byte) : List Bool := (List.range 8).map b.getMsbD

/-- The burn bits of a band's valid lines, line by line (R110, R111). -/
def burnBits (printPlanes : Planes) (count : Nat) (cells : List (List Cell)) : List (List Bool) :=
  (cells.take count).map (·.map (Cell.burns printPlanes))

/-- The check value of a band: dot 0 of a line is bit 7 of its first byte, so the bits run in dot order (R111). -/
def bandCheck (printPlanes : Planes) (count : Nat) (cells : List (List Cell)) : BitVec 16 :=
  crcBits (burnBits printPlanes count cells).flatten

/-- How many dots of a band burn (R157). -/
def burnedDots (printPlanes : Planes) (count : Nat) (cells : List (List Cell)) : Nat :=
  ((burnBits printPlanes count cells).flatten.filter id).length

/-! ### The end of a fill (R103, R109) -/

/-- The label's counts settled in the fill of band 0 (R24, R109). -/
def LabelRecord.counted (l : LabelRecord) (rendered : List (Field × Rendering × Planes)) : LabelRecord :=
  { l with
    truncations := (rendered.filter (fun e => e.2.1.truncated)).length
    symbolErrors := (rendered.filter (fun e => e.2.1.symbolError)).length
    masked := (rendered.filter (fun e => isMasked e.2.1 e.2.2)).length }

/-- The band being filled becomes FULL with its dots and its check value; band 0 settles the counts; a last band is the end of the
composer's label (R103, R109, R111). -/
def State.finishFill (s : State) : State :=
  match s.hand, s.filling? with
  | some h, some i =>
    match (s.buffer i).record, s.job? h.job, s.profile with
    | some r, some j, some p =>
      match s.activeForm j.form with
      | none => s
      | some f =>
        let values := ((s.label? h.job h.copy).map LabelRecord.values).getD []
        let rendered := renderLabel f j values h.copy h.snapshot
        let cells := bandCells p.dots f.width (drawnFields rendered) r
        let s := s.onBuffer i fun _ =>
          { state := .full, record := some { r with check := bandCheck f.printPlanes r.count cells }, cells := cells }
        let s := if r.band = 0 then
            { s with labels := s.labels.map fun l => if l.job = h.job ∧ l.copy = h.copy then l.counted rendered else l }
          else s
        if r.last then { s with hand := none } else s
    | _, _, _ => s
  | _, _ => s

end Sys2Proof.Machine
end

