-- ==== Sys2Proof/Machine/Heat.lean ====
section
/-! DEFINITION. Heat timing: strobe times, dot classes, the phase plan, the line period, the line history (chapter 7). -/

namespace Sys2Proof.Machine

/-! ### Strobe times (R121 to R124) -/

/-- The base time (R122). -/
def baseTime (darkness : Nat) : Nat := 300 + 25 * darkness

/-- The temperature factor (R122). -/
def temperatureFactor (t : Int) : Nat := (clampInt 768 1280 (1024 + (25 - t) * 8)).toNat

/-- The voltage factor, of V10 clamped to 200..280 (R123). -/
def voltageFactor (v : Nat) : Nat := roundDiv 58982400 ((max 200 (min 280 v)) ^ 2)

/-- The time t2 before the class weights (R124, stages 4 and 5). -/
def unweightedTime (darkness : Nat) (t : Int) (v : Nat) : Nat :=
  roundDiv (roundDiv (baseTime darkness * temperatureFactor t) 1024 * voltageFactor v) 1024

/-- A class time: weighted, rounded and clamped to 100..1,800 (R124, stages 6 and 7). -/
def classTime (t2 weight : Nat) : Nat := max 100 (min 1800 (roundDiv (t2 * weight) 1024))

/-- The four class times of a line (R121, R124). -/
def classTimes (r : RunSettings) (t : Int) (v : Nat) : ClassTimes :=
  let t2 := unweightedTime r.darkness t v
  { a := classTime t2 1024, b := classTime t2 r.weightB, c := classTime t2 r.weightC, d := classTime t2 r.weightD }

/-! ### Dot classes (R125) -/

/-- A dot's class from its two marks: burned in the previous line, burned two lines back (R125). -/
def dotClass (previous twoBack : Bool) : DotClass :=
  match previous, twoBack with
  | false, false => .a
  | false, true => .b
  | true, false => .c
  | true, true => .d

/-- The class of a dot in a line history (R125). -/
def classOf (history1 history2 : List Bool) (dot : Nat) : DotClass :=
  dotClass (history1.getD dot false) (history2.getD dot false)

/-- The time of a class (R124). -/
def ClassTimes.of (t : ClassTimes) : DotClass → Nat
  | .a => t.a
  | .b => t.b
  | .c => t.c
  | .d => t.d

/-- The highest-energy class among some: A above B above C above D (R129). -/
def highestClass (l : List DotClass) : DotClass :=
  if l.contains .a then .a else if l.contains .b then .b else if l.contains .c then .c else .d

/-! ### The phase plan (R127, R128) -/

/-- The burning dots of a line, in ascending order (R127). -/
def burningDots (bits : List Bool) : List Nat := (bits.zipIdx.filter (·.1)).map (·.2)

/-- A list cut into chunks of P, the last holding what is left; `fuel` at least the length cuts it whole (R127). -/
def chunksFuel (p : Nat) : Nat → List Nat → List (List Nat)
  | 0, _ => []
  | _, [] => []
  | fuel + 1, l => l.take p :: chunksFuel p fuel (l.drop p)

/-- A list cut into chunks of P (R127). -/
def chunks (p : Nat) (l : List Nat) : List (List Nat) := chunksFuel p l.length l

/-- The groups in firing order for a line index (R128). -/
def groupOrder (order : FireOrder) (g y : Nat) : List Nat :=
  match order with
  | .sequential => (List.range g).map fun k => (y % g + k) % g
  | .interleaved => (List.range g).map fun k => y % g ^^^ k

/-- The burning dots of strobe group k, which covers dots k·D/G to (k+1)·D/G − 1 (00_scope, Head geometry). -/
def groupDots (d g k : Nat) (dots : List Nat) : List Nat :=
  dots.filter fun x => k * (d / g) ≤ x && x < (k + 1) * (d / g)

/-- The phases of one group: its burning dots in chunks of P, each lasting its highest class's time (R127, R129). -/
def groupPhases (times : ClassTimes) (cls : Nat → DotClass) (p k : Nat) (dots : List Nat) : List Phase :=
  (chunks p dots).map fun c => { group := k, dots := c, time := times.of (highestClass (c.map cls)) }

/-- The phase plan of a line (R127 to R129). -/
def phasePlan (h : HeadProfile) (r : RunSettings) (times : ClassTimes) (cls : Nat → DotClass) (y : Nat) (bits : List Bool) :
    List Phase :=
  (groupOrder r.fireOrder h.groups y).flatMap fun k =>
    groupPhases times cls r.budget k (groupDots h.dots h.groups k (burningDots bits))

/-! ### The line period (R131 to R133) -/

/-- The required period: phases, gaps of 20 µs between them and 40 µs of settle; 0 without phases (R131). -/
def requiredPeriod (phases : List Phase) : Nat :=
  if phases.isEmpty then 0 else (phases.map Phase.time).sum + 20 * (phases.length - 1) + 40

/-- The minimum period of a speed, doubled in hot mode (R132). -/
def minimumPeriod (speed : Nat) (hot : Bool) : Nat :=
  if hot then 2 * ceilDiv 1000000 (8 * speed) else ceilDiv 1000000 (8 * speed)

/-- The ramp floor: seven eighths of the previous period, rounded up; 8,000 µs from standstill (R133). -/
def rampFloor (previous : Option Nat) : Nat :=
  match previous with
  | none => 8000
  | some p => ceilDiv (7 * p) 8

/-- The period of a forward line: the largest of its three figures (R133). -/
def linePeriod (required minimum ramp : Nat) : Nat := max required (max minimum ramp)

/-! ### Starting and cutting lines -/

/-- A forward line fed unburned starts: no phases and a required period of 0 (R134). -/
def State.startBlank (s : State) : State :=
  match s.settings with
  | none => s
  | some r =>
    s.onEngine fun e => { e with
      line := some {
        period := linePeriod 0 (minimumPeriod r.speed e.hot) (rampFloor e.prevPeriod), required := 0, burn := none, phases := [],
        strobe := .off, enabled := [] } }

/-- A line of a label starts to be burned: class times, phase plan and period are fixed from the latest readings and settings, and
the first phase fires (R121, R129, R133). -/
def State.startBurn (s : State) (y : Nat) (bits : List Bool) : State :=
  match s.settings, s.profile with
  | some r, some h =>
    s.onEngine fun e =>
      let times := classTimes r e.temperature e.voltage
      let phases := phasePlan h r times (classOf e.history1 e.history2) y bits
      let required := requiredPeriod phases
      { e with
        line := some {
          period := linePeriod required (minimumPeriod r.speed e.hot) (rampFloor e.prevPeriod), required := required,
          burn := some { bits := bits, times := times }, phases := phases,
          strobe := if phases.isEmpty then .off else .on,
          enabled := ((phases.head?).map Phase.dots).getD [] } }
  | _, _ => s

/-- The line history moved on by the line that ended: its burned dots mark the previous line; a line fed unburned marks none (R126). -/
def Engine.shiftHistory (e : Engine) (dots : Nat) (l : Line) : Engine :=
  { e with
    history2 := e.history1
    history1 := match l.burn with
      | some b => b.bits
      | none => List.replicate dots false }

/-- The motor stops: no line in progress, the history cleared, the previous period standstill (R126, R133). -/
def Engine.motorStop (e : Engine) : Engine :=
  { e with
    line := none, prevPeriod := none,
    history1 := List.replicate e.history1.length false, history2 := List.replicate e.history2.length false }

/-- The hot-mode flag judged against T (R120). -/
def judgeHot (threshold : Nat) (t : Int) (hot : Bool) : Bool :=
  if hot then !decide (t ≤ (threshold : Int) - 5) else decide ((threshold : Int) ≤ t)

/-! ### Strobe events within a line (R129) -/

/-- The phase on the head ends: its strobe is off and no dot is enabled; a gap follows unless it was the last (R129). -/
def Line.endPhase (l : Line) : Line :=
  match l.strobe with
  | .on => { l with phases := l.phases.tail, enabled := [], strobe := if l.phases.tail.isEmpty then .off else .gap }
  | _ => l

/-- The gap ends: the next phase fires (R129). -/
def Line.endGap (l : Line) : Line :=
  match l.strobe with
  | .gap => { l with strobe := .on, enabled := ((l.phases.head?).map Phase.dots).getD [] }
  | _ => l

/-- A dot's class time ends: it is disabled (R129). -/
def Line.disableDot (l : Line) (dot : Nat) : Line := { l with enabled := l.enabled.filter (· != dot) }

end Sys2Proof.Machine
end

