-- ==== Sys2Proof/Machine/Motion.lean ====
section
/-! DEFINITION. Media motion and dry run: the gap sensor, the edge list and registration, label starts, label lines, presenting,
retracting, faults, FEED and the consumption of bands in DRY (chapters 8 and 9). -/

namespace Sys2Proof.Machine

/-! ### What the profile and the settings give -/

/-- The top offset of the run settings (R141, R184); 0 before any. -/
def State.topOffset (s : State) : Int := s.settings.elim 0 RunSettings.topOffset

/-- The sensor offset S of the head profile (R138, R183). -/
def State.sensorOffset (s : State) : Nat := s.profile.elim 0 HeadProfile.sensor

/-- The head-to-peel distance E of the head profile (R146, R183). -/
def State.peelDistance (s : State) : Nat := s.profile.elim 0 HeadProfile.peel

/-- Whether the present mode is PEEL (R148, R184). -/
def State.peels (s : State) : Bool := s.settings.any (fun r => r.present = .peel)

/-- A label's present position: Ps + L + E (R146). -/
def State.presentPosition (s : State) (h : HeadLabel) : Int := h.start + h.length + s.peelDistance

/-! ### The gap sensor (R138 to R140) -/

/-- Whether a record belongs to a label at the head (R139). -/
def Engine.tied (e : Engine) (pos : Int) : Bool := e.heads.any (fun h => h.edge == some pos)

/-- Registration lost other than at a fault: only the records of labels at the head are kept (R140). -/
def Engine.loseRegistration (e : Engine) : Engine :=
  { e with registered := false, edges := e.edges.filter (fun x => e.tied x.pos) }

/-- An edge found: appended, which holds registration again, or dropped from a full list, which loses it (R139, R140). -/
def Engine.edgeFound (e : Engine) (pos : Int) : Engine :=
  if e.edges.length < 32 then { e with edges := e.edges ++ [{ pos := pos, length := none }], registered := true }
  else e.loseRegistration

/-- A turn to gap: the last record takes its measured length if it has none (R139). -/
def Engine.gapFound (e : Engine) (pos : Int) : Engine :=
  match e.edges.getLast? with
  | some x =>
    match x.length with
    | none => { e with edges := e.edges.dropLast ++ [{ x with length := some (pos - x.pos) }] }
    | some _ => e
  | none => e

/-- One reading taken at a media position while the decision is label (R138, R139). -/
def Engine.readOnLabel (e : Engine) (nOn : Nat) (pos : Int) (gap : Bool) : Engine :=
  if gap then
    if nOn ≤ e.gapRun + 1 then
      { e with gap := true, gapRun := 0, labelRun := 0, gapLength := 1 }.gapFound (pos - ((nOn : Int) - 1))
    else { e with gapRun := e.gapRun + 1 }
  else { e with gapRun := 0 }

/-- One reading taken at a media position while the decision is gap (R138, R139). -/
def Engine.readOnGap (e : Engine) (nOff : Nat) (pos : Int) (gap : Bool) : Engine :=
  if gap then { e with labelRun := 0, gapLength := e.gapLength + 1 }
  else if nOff ≤ e.labelRun + 1 then
    { e with gap := false, gapRun := 0, labelRun := 0, gapLength := 0 }.edgeFound (pos - ((nOff : Int) - 1))
  else { e with labelRun := e.labelRun + 1, gapLength := e.gapLength + 1 }

/-- The reading after a forward step: taken only beyond the sensed-to mark (R138). -/
def Engine.read (e : Engine) (sensor nOn nOff : Nat) (gap : Bool) : Engine :=
  if e.mark < e.hp + sensor then
    let e' := { e with mark := e.hp + sensor }
    if e.gap then e'.readOnGap nOff (e.hp + sensor) gap else e'.readOnLabel nOn (e.hp + sensor) gap
  else e

/-! ### Label starts (R141) -/

/-- Records passed over leave the list at a choice, but for those of labels at the head (R139). -/
def Engine.prune (e : Engine) (offset : Int) : Engine :=
  { e with edges := e.edges.filter (fun x => e.hp ≤ x.pos + offset || e.tied x.pos) }

/-- The usable edge: registration held, the first record whose position plus the top offset is not below HP (R141). -/
def Engine.usableEdge (e : Engine) (offset : Int) : Option Edge :=
  if e.registered then e.edges.find? (fun x => e.hp ≤ x.pos + offset) else none

/-- A start chosen for the label waiting at the take position, or the engine goes REGISTERING for it (R141). -/
def Engine.chooseStart (e : Engine) (offset : Int) : Engine :=
  let e := e.prune offset
  match e.usableEdge offset with
  | some x => { e with mode := .burning, task := .approach (x.pos + offset) x.pos, feedCount := 0 }
  | none => { e with mode := .registering, task := .seek, feedCount := if e.mode = .registering then e.feedCount else 0 }

/-- Out of work: on to the highest present position of the labels being carried out, or STOPPED (R147). -/
def State.outOfWork (s : State) : State :=
  match (s.engine.heads.filter (·.out)).map s.presentPosition with
  | [] => s.onEngine fun e => { e.motorStop with mode := .stopped, task := .idle }
  | p :: rest => s.onEngine fun e => { e with mode := .burning, task := .carry (rest.foldl max p) }

/-- The engine looks for its next work: VOID bands are skipped, then a start is chosen for a FULL band 0, or it is out of work
(R113, R141, R147). -/
def State.lookForWork (s : State) : State :=
  let s := s.skipVoid
  if s.readyBand?.isSome then s.onEngine (·.chooseStart s.topOffset) else s.outOfWork

/-! ### Label lines (R142 to R145) -/

/-- The label at the head whose lines are not all done. -/
def State.burningLabel? (s : State) : Option HeadLabel := s.engine.heads.find? (fun h => !h.out)

/-- A label at the head changed. -/
def State.onHead (s : State) (job copy : Nat) (f : HeadLabel → HeadLabel) : State :=
  s.onEngine fun e => { e with heads := e.heads.map fun h => if h.job = job ∧ h.copy = copy then f h else h }

/-- A label record changed. -/
def State.onLabel (s : State) (job copy : Nat) (f : LabelRecord → LabelRecord) : State :=
  { s with labels := s.labels.map fun l => if l.job = job ∧ l.copy = copy then f l else l }

/-- Whether a band record holds a line of a label. -/
def BandRecord.hasLine (r : BandRecord) (job copy y : Nat) : Bool :=
  r.job == job && r.copy == copy && r.first ≤ y && y < r.first + r.count

/-- The burn bits of a label line in a buffer, under the job's print planes (R110, R142). -/
def State.lineBits (s : State) (i : Fin 8) (job y : Nat) : List Bool :=
  let planes := ((s.job? job).bind (fun j => s.activeForm j.form)).elim 0#4 Form.printPlanes
  let first := ((s.buffer i).record.map BandRecord.first).getD 0
  ((s.buffer i).cells.getD (y - first) []).map (Cell.burns planes)

/-- Whether the BURNING buffer holds a line of a label. -/
def State.burningHas (s : State) (job copy y : Nat) : Bool :=
  s.burning?.any fun i => (s.buffer i).record.any (·.hasLine job copy y)

/-- Whether the FULL band at the take position holds a line of a label. -/
def State.takeHas (s : State) (job copy y : Nat) : Bool := s.takeFull?.any (·.hasLine job copy y)

/-- An underrun: PAUSED with the motor stopped and the pause counted, or the label spoiled and fed on (R143, R144). -/
def State.underrun (s : State) (h : HeadLabel) : State :=
  match s.settings.map RunSettings.underrun with
  | some .redo => (s.onHead h.job h.copy fun h => { h with spoiled := true }).startBlank
  | _ =>
    (s.onLabel h.job h.copy fun l => { l with pauses := min 255 (l.pauses + 1) }).onEngine fun e =>
      { e.motorStop with mode := .paused }

/-- The next line of the label at the head starts: burned from its band, fed unburned when the label is cancelled or spoiled, or an
underrun (R142 to R145). -/
def State.startLabelLine (s : State) (h : HeadLabel) : State :=
  if h.spoiled then s.startBlank
  else
    let s := if !s.burningHas h.job h.copy h.done && s.takeHas h.job h.copy h.done then s.takeBand else s
    if s.isCancelled h.job then s.startBlank
    else if s.burningHas h.job h.copy h.done then
      match s.burning? with
      | some i => s.startBurn h.done (s.lineBits i h.job h.done)
      | none => s
    else s.underrun h

/-- Line 0 of the label waiting at the take position: the label is at the head, tied to its edge (R141, R142). -/
def State.beginAtHead (s : State) (start edge : Int) : State :=
  match s.takeFull? with
  | none => s.startBlank
  | some r =>
    let length := ((s.job? r.job).bind (fun j => s.activeForm j.form)).elim 0 Form.length
    let h : HeadLabel :=
      { job := r.job, copy := r.copy, start := start, length := length, edge := some edge, done := 0, out := false, spoiled := false }
    (s.onEngine fun e => { e with heads := e.heads ++ [h], task := .lines }).startLabelLine h

/-- The line the engine's task calls for starts (R134, R141, R142). -/
def State.startMove (s : State) : State :=
  match s.engine.task with
  | .idle => s
  | .approach start edge => if start ≤ s.engine.hp then s.beginAtHead start edge else s.startBlank
  | .lines =>
    match s.burningLabel? with
    | some h => s.startLabelLine h
    | none => s.startBlank
  | _ => s.startBlank

/-- The engine goes on to its next work (R141, R147). -/
def State.goOn (s : State) : State := s.lookForWork.startMove

/-! ### Presenting and retracting (R147 to R149) -/

/-- A retract of E lines begins, or with E = 0 the engine chooses at once (R149). -/
def State.retract (s : State) : State :=
  if s.peelDistance = 0 then
    (s.onEngine fun e => { e.motorStop with mode := .stopped, task := .idle }).goOn
  else
    s.onEngine fun e => { e.motorStop with mode := .retracting, task := .idle, backLeft := s.peelDistance, backPeriod := 8000 }

/-- In PRESENTING in TEAR mode: the retract is begun when the band at the take position is the FULL band 0 of a label (R147). -/
def State.lookFromPresenting (s : State) : State :=
  if s.peels then s
  else
    let s := s.skipVoid
    if s.readyBand?.isSome then s.retract else s

/-- The engine arrives at a present position and stops in PRESENTING (R147, R148). -/
def State.present (s : State) : State :=
  (s.onEngine fun e => { e.motorStop with mode := .presenting, task := .idle, absent := 0 }).lookFromPresenting

/-- A back-feed step (R149). -/
def State.backFeed (s : State) : State :=
  if s.engine.mode = .retracting then
    let s := s.onEngine fun e =>
      { e with hp := e.hp - 1, backLeft := e.backLeft - 1, backPeriod := max 2500 (ceilDiv (7 * e.backPeriod) 8) }
    if s.engine.backLeft = 0 then
      (s.onEngine fun e => { e.motorStop with mode := .stopped, task := .idle, backPeriod := 0 }).goOn
    else s
  else s

/-! ### Label ends (R154) -/

/-- The length-mismatch flag of a label, from its edge record (R154). -/
def State.mismatch (s : State) (h : HeadLabel) : Bool :=
  match h.edge.bind (fun pos => s.engine.edges.find? (fun x => x.pos == pos)) with
  | none => false
  | some x => x.length.any fun l => s.settings.elim 0 RunSettings.tolerance < (l - (h.length : Int)).natAbs

/-- A label at the head ends: its flag is settled, the queue takes the end, and its edge record leaves the list (R139, R154). -/
def State.endAtHead (s : State) (h : HeadLabel) (outcome : LabelOutcome) : State :=
  (s.endLabel h.job h.copy outcome (s.mismatch h)).onEngine fun e =>
    { e with edges := e.edges.filter (fun x => h.edge != some x.pos) }

/-- What a step does to one label at the head: its last line done ends it VOIDED or SPOILED; in TEAR mode its present position reached
ends it PRINTED (R144, R145, R147, R154). -/
def State.endIfDue (s : State) (h : HeadLabel) : State :=
  if !h.out then
    if h.length ≤ h.done then s.endAtHead h (if s.isCancelled h.job then .voided else .spoiled) else s
  else if !s.peels && s.presentPosition h ≤ s.engine.hp then s.endAtHead h .printed
  else s

/-- The labels at the head end as a step requires, in the order they started; a spoiled label's end flushes the ring (R114, R144,
R154). -/
def State.endsAtStep (s : State) : State :=
  let s := s.onEngine fun e => { e with
    heads := e.heads.map fun h => if h.length ≤ h.done && !h.spoiled && !s.isCancelled h.job then { h with out := true } else h }
  let spoiled := s.engine.heads.find? (fun h => h.spoiled && !h.out && h.length ≤ h.done)
  let entry := spoiled.bind fun h => if s.isCancelled h.job then none else s.redoEntry? h.job h.copy
  let s' := s.engine.heads.foldl State.endIfDue s
  if spoiled.isSome then s'.flush entry else s'

/-! ### Faults (R150 to R152) -/

/-- Whether the engine enters FAULT when a fault joins an empty set in this state (R151). -/
def EngineMode.entersFault : EngineMode → Bool
  | .stopped | .registering | .burning | .paused | .presenting | .retracting => true
  | .unset | .dry | .fault => false

/-- The outcome entry into FAULT gives a label at the head (R151, R154). -/
def State.faultOutcome (s : State) (h : HeadLabel) : LabelOutcome :=
  if h.out || (h.length ≤ h.done && !h.spoiled && !s.isCancelled h.job) then .printed
  else if s.isCancelled h.job then .voided
  else .faulted

/-- Registration lost and the gap sensor begun afresh at an entry into FAULT; an owed retract is dropped (R138, R140, R151). -/
def Engine.faultCleared (e : Engine) (sensor : Nat) : Engine :=
  { e with
    mode := .fault, registered := false, edges := [], mark := e.hp + sensor, gap := false, gapRun := 0, labelRun := 0, gapLength := 0,
    task := .idle, feedCount := 0, absent := 0, backLeft := 0, backPeriod := 0 }

/-- Entry into FAULT, in the order of R151. -/
def State.enterFault (s : State) : State :=
  let s := s.onEngine Engine.motorStop
  let first := (s.engine.heads.find? (fun h => s.faultOutcome h = .faulted)).bind fun h => s.redoEntry? h.job h.copy
  let s' := s.engine.heads.foldl (fun t h => t.endAtHead h (s.faultOutcome h)) s
  ((s'.flush first).onEngine (·.faultCleared s.sensorOffset)).postAll .engineFault

/-- A fault set replaced by a larger one: the engine enters FAULT when the set was empty and its state calls for it (R150, R151). -/
def State.joinFaults (s : State) (f : FaultSet) : State :=
  let s' := s.onEngine fun e => { e with faults := f }
  if s.engine.faults.isEmpty && !f.isEmpty && s.engine.mode.entersFault then s'.enterFault else s'

/-! ### Dry run (R155 to R162) -/

/-- A burned or consumed line handed to one port's watch (R182). -/
def PortState.handLine (q : PortState) (job copy line : Nat) : PortState :=
  if q.watch = some { job := job, copy := copy, line := line } then { q with watch := none }.post .positionReached else q

/-- A burned or consumed line handed to every port (R142, R156, R182). -/
def State.handLine (s : State) (job copy line : Nat) : State :=
  { s with ports := mapVec (·.handLine job copy line) s.ports }

/-- DRY takes bands at the take position: VOID ones are freed at once, another becomes BURNING and its consumption begins
(R98, R156; log 19). -/
def dryTakeFuel : Nat → State → State
  | 0, s => s
  | fuel + 1, s =>
    match s.takeFull? with
    | none => s
    | some r =>
      if r.void then
        dryTakeFuel fuel s.skipBand.settle
      else
        s.takeDryBand.onEngine fun e => { e with
          dryLine := some 0
          heads := if e.heads.any (fun h => h.job == r.job && h.copy == r.copy) then e.heads
            else e.heads ++ [{ job := r.job, copy := r.copy, start := e.hp, length := 0, edge := none, done := 0, out := false,
                               spoiled := false }] }

/-- DRY looks at the take position, unless a band is being consumed or dry run is being left (R156, R161). -/
def State.dryTake (s : State) : State :=
  if s.engine.mode = .dry && !s.engine.leavingDry && s.engine.dryLine.isNone then dryTakeFuel 9 s else s

/-! ### What the engine does when the ring or its state has changed -/

/-- The engine looks at what a change of the ring, of a job or of its state lets it do: choose from STOPPED, go on from PAUSED, begin an
owed retract, or take a band in DRY (R136, R141, R143, R147, R156). -/
def State.engineLook (s : State) : State :=
  match s.engine.mode with
  | .stopped => s.goOn
  | .paused =>
    match s.burningLabel? with
    | some h =>
      if s.isCancelled h.job || s.takeHas h.job h.copy h.done then
        (s.onEngine fun e => { e with mode := .burning }).startLabelLine h
      else s
    | none => s
  | .presenting => s.lookFromPresenting
  | .dry => s.dryTake
  | _ => s

/-- Faults leave the set; when it is then empty the engine goes from FAULT to STOPPED, ENGINE-READY is posted and the next work is
chosen (R150, R152). -/
def State.leaveFaults (s : State) (f : FaultSet) : State :=
  let s' := s.onEngine fun e => { e with faults := f }
  if !s.engine.faults.isEmpty && f.isEmpty && s.engine.mode = .fault then
    ((s'.onEngine fun e => { e with mode := .stopped }).postAll .engineReady).engineLook
  else s'

/-- Leaving DRY (R162). -/
def State.leaveDry (s : State) : State :=
  let ending := s.labels.filter (fun l => !s.isCancelled l.job)
  let s := ending.foldl (fun s l => s.endLabel l.job l.copy .dry false) s
  let s := s.onEngine fun e => { e with
    mode := .stopped, heads := [], dryLine := none, leavingDry := false, registered := false, edges := [] }
  let s := State.settle { s with ring := .empty, hand := none }
  if s.engine.faults.isEmpty then s.engineLook else s.enterFault

/-- After a band is done with in DRY: dry run is left, or the next band is looked for (R156, R161). -/
def State.dryNext (s : State) : State := if s.engine.leavingDry then s.leaveDry else s.dryTake

/-- The band report of a consumed band, on the origin port's list (R157). -/
def State.bandReport (s : State) (i : Fin 8) (r : BandRecord) : State :=
  match s.job? r.job with
  | none => s
  | some j =>
    let planes := (s.activeForm j.form).elim 0#4 Form.printPlanes
    s.onPort j.origin (·.place (.band {
      job := r.job, copy := r.copy, band := r.band, burned := burnedDots planes r.count (s.buffer i).cells, check := r.check }))

/-- The line in consumption is done: handed to the watches; a cancelled label ends VOIDED; the last valid line makes the band report, any
label end and the freeing of the buffer (R98, R156 to R159; log 19). -/
def State.consumeLine (s : State) : State :=
  match s.engine.mode, s.engine.dryLine, s.burning? with
  | .dry, some k, some i =>
    match (s.buffer i).record with
    | none => s
    | some r =>
      let s := s.handLine r.job r.copy (r.first + k)
      if s.isCancelled r.job then
        (((s.freeDryBand i).onEngine fun e => { e with dryLine := none }).endLabel r.job r.copy .voided false).dryNext
      else if k + 1 < r.count then s.onEngine fun e => { e with dryLine := some (k + 1) }
      else
        let s := (s.bandReport i r).onEngine fun e => { e with dryLine := none }
        let s := if r.last then s.endLabel r.job r.copy .dry false else s
        (s.freeDryBand i).settle.dryNext
  | _, _, _ => s

/-! ### A cancel, seen by the engine -/

/-- In DRY: a label of the cancelled job at the head with no band in consumption ends VOIDED at once (R159). -/
def State.dryCancel (s : State) (n : Nat) : State :=
  match s.engine.heads.find? (fun h => h.job == n) with
  | none => s.dryTake
  | some h =>
    if s.burning?.any (fun i => (s.buffer i).holds h.job h.copy) then s
    else (s.endLabel h.job h.copy .voided false).dryTake

/-- The engine's part in a cancel in flight: a label waiting or chosen is given up and the choice is made again, a PAUSED label goes on,
VOID bands are skipped, a label in DRY ends (R141, R143, R145, R159). -/
def State.cancelAtEngine (s : State) (n : Nat) : State :=
  match s.engine.mode with
  | .dry => s.dryCancel n
  | .registering | .burning =>
    match s.engine.task with
    | .seek | .approach .. => if s.takeFull?.any (·.void) then s.lookForWork else s
    | _ => s
  | _ => s.engineLook

/-! ### FEED (R153) -/

/-- The search for the start after the blank label's: the first record beyond its edge whose start is not below HP (R153). -/
def Engine.feedNext (e : Engine) (offset first : Int) : Engine :=
  match e.edges.find? (fun x => first < x.pos && e.hp ≤ x.pos + offset) with
  | some x => { e with task := .feedTo (x.pos + offset), feedCount := 0 }
  | none => { e with task := .feedSecond first }

/-- The searches of a FEED, made at its start and at every reading, as R141 makes its own; passed-over records leave the list at each. Once
the target is chosen there is no search, and records stay (R139, R153; log 17: DEDUCED). -/
def Engine.feedSearch (e : Engine) (offset : Int) : Engine :=
  match e.task with
  | .feedFirst =>
    let e := e.prune offset
    match e.usableEdge offset with
    | some x => { e with feedCount := 0 }.feedNext offset x.pos
    | none => e
  | .feedSecond first => (e.prune offset).feedNext offset first
  | _ => e

/-- A FEED begins (R153). -/
def State.startFeed (s : State) : State :=
  (s.onEngine fun e => { e with mode := .registering, task := .feedFirst, feedCount := 0 }.feedSearch s.topOffset).startBlank

/-! ### A forward step (R133, R137, R142) -/

/-- Whether the feed is looking for an edge, and so counts its lines (R141, R153). -/
def Task.searches : Task → Bool
  | .seek | .feedFirst | .feedSecond _ => true
  | _ => false

/-- The label line that ended: counted, handed to the watches if it was burned, and its band freed after the last valid line (R98,
R142). -/
def State.endLine (s : State) (l : Line) : State :=
  match s.engine.task, s.burningLabel? with
  | .lines, some h =>
    let s := s.onHead h.job h.copy fun h => { h with done := h.done + 1 }
    let s := if l.burn.isSome then s.handLine h.job h.copy h.done else s
    match s.burning? with
    | some i => if (s.buffer i).record.any (fun r => r.first + r.count ≤ h.done + 1) then s.freeBuffer i else s
    | none => s
  | _, _ => s

/-- The engine after the last line of the label at the head: in PEEL mode a label burned whole is fed out to be presented; else the next
work is looked for (R147, R148). -/
def State.afterLabel (s : State) : State :=
  match s.peels, s.engine.heads.find? (·.out) with
  | true, some h =>
    if s.peelDistance = 0 then s.present
    else (s.onEngine fun e => { e with mode := .burning, task := .carry (s.presentPosition h) }).startMove
  | _, _ => s.goOn

/-- The line count of a search that goes on (R141). -/
def State.countSearch (s : State) : State :=
  if s.engine.task.searches then s.onEngine fun e => { e with feedCount := e.feedCount + 1 } else s

/-- What the engine does next after a step, by its task; a search chooses at a step whose reading is taken (R141 to R148, R153). -/
def State.afterStep (s : State) (read : Bool) : State :=
  match s.engine.task with
  | .idle => s
  | .lines => if s.burningLabel?.isSome then s.startMove else s.afterLabel
  | .seek => if read then s.countSearch.goOn else s.countSearch.startBlank
  | .approach .. => s.startMove
  | .carry target => if target ≤ s.engine.hp then s.present else s.startBlank
  | .feedFirst | .feedSecond _ | .feedTo _ =>
    let s := if read then s.countSearch.onEngine (·.feedSearch s.topOffset) else s.countSearch
    match s.engine.task with
    | .feedTo target =>
      if target ≤ s.engine.hp then (s.onEngine fun e => { e.motorStop with mode := .stopped, task := .idle }).engineLook
      else s.startBlank
    | _ => s.startBlank

/-- Whether the reading after the next forward step is taken (R138). -/
def State.readsNext (s : State) : Bool := s.engine.mark < s.engine.hp + 1 + s.sensorOffset

/-- The fault set with MEDIA-OUT, when a step's reading is taken and the gap length exceeds the gap limit (R138, R150). -/
def State.mediaFaults (s : State) (read : Bool) : FaultSet :=
  if read && s.settings.any (fun r => r.gapLimit < s.engine.gapLength) then s.engine.faults.put .mediaOut true else s.engine.faults

/-- A fault set with NO-GAP, when a search has fed 4,800 lines (R141, R150). -/
def FaultSet.withNoGap (f : FaultSet) (task : Task) (count : Nat) : FaultSet :=
  if task.searches && 4800 ≤ count then f.put .noGap true else f

/-- The motor steps: HP rises, the period just ended becomes the previous one, the sensor is read and the history moves on (R126, R133,
R137, R138). -/
def State.motorSteps (s : State) (l : Line) (gap : Bool) : State :=
  s.onEngine fun e =>
    (({ e with hp := e.hp + 1, prevPeriod := some l.period, line := none }).read s.sensorOffset
      (s.settings.elim 1 RunSettings.nOn) (s.settings.elim 1 RunSettings.nOff) gap).shiftHistory
      (s.profile.elim 0 HeadProfile.dots) l

/-- A forward step (R133, R136 to R148). Where the step raises a fault and also gives the engine a cause to move, either is taken first
(R136): Config.faultFirst says which (log 4). -/
def State.forwardStep (s : State) (gap : Bool) : State :=
  match s.engine.mode, s.engine.line with
  | .registering, some l | .burning, some l =>
    let read := s.readsNext
    let s := (s.motorSteps l gap).endLine l
    let media := s.mediaFaults read
    let early := media.withNoGap s.engine.task (s.engine.feedCount + 1)
    if early = s.engine.faults then s.endsAtStep.afterStep read
    else
      let first := Config.faultFirst s.freeTick
      let s := { s with freeTick := s.freeTick + 1 }
      if first then s.joinFaults early
      else
        let s := s.endsAtStep.afterStep read
        s.joinFaults (media.withNoGap s.engine.task s.engine.feedCount)
  | _, _ => s

end Sys2Proof.Machine
end

