-- ==== Sys2Proof/Machine/SetupRecords.lean ====
section
/-! DEFINITION. The set-up records: HEAD-PROFILE, RUN-SETTINGS, RETAIN-SCOPE, PORT-SETTINGS and ENGINE-QUERY (R52, R172, R183 to R185). -/

namespace Sys2Proof.Machine

/-! ### HEAD-PROFILE (R183) -/

/-- Whether a temperature raises OVERHEAT under a head profile (R150). -/
def HeadProfile.overheats (h : HeadProfile) (t : Int) : Bool := (h.threshold : Int) + 15 ≤ t

/-- A head profile loaded: the history sized, M set, hot mode and OVERHEAT judged on the latest T (R120, R138, R150, R183). -/
def State.loadProfile (s : State) (h : HeadProfile) : State :=
  let s := { s with profile := some h }.onEngine fun e => { e with
    history1 := List.replicate h.dots false
    history2 := List.replicate h.dots false
    mark := e.hp + h.sensor
    hot := judgeHot h.threshold e.temperature e.hot }
  if h.overheats s.engine.temperature then s.joinFaults (s.engine.faults.put .overheat true) else s

/-- HEAD-PROFILE once its body is read (R183). -/
def State.takeHeadProfile (s : State) (p : Port) (h : HeadProfile) : State :=
  if s.profile.isSome then s.answer p .headProfile .alreadySet
  else if !h.inRange then s.answer p .headProfile .badValue
  else (s.loadProfile h).accept p .headProfile []

/-- HEAD-PROFILE (R183). -/
def execHeadProfile (p : Port) (body : List Byte) (s : State) : Host.Outcome State Fault Refusal :=
  s.record p .headProfile body parseHeadProfile fun h s => s.takeHeadProfile p h

/-! ### RUN-SETTINGS (R184) -/

/-- Whether RUN-SETTINGS is refused ENGINE-BUSY (R184). -/
def State.settingsBusy (s : State) : Bool :=
  !(s.engine.mode = .unset || s.engine.mode = .stopped) ||
    s.ring.buffers.toList.any (fun b => b.state = .full || b.state = .filling)

/-- Run settings in force; from UNSET the engine goes to STOPPED, or through it into FAULT (R136, R151, R184). -/
def State.loadSettings (s : State) (r : RunSettings) : State :=
  let s' := { s with settings := some r }
  if s.engine.mode = .unset then
    let s' := s'.onEngine fun e => { e with mode := .stopped }
    if s.engine.faults.isEmpty then s' else s'.enterFault
  else s'

/-- RUN-SETTINGS once its body is read; none stands for a choice byte outside its values (R184). -/
def State.takeRunSettings (s : State) (p : Port) (r : Option RunSettings) : State :=
  match s.profile, r with
  | none, _ => s.answer p .runSettings .notSetUp
  | some _, none => s.answer p .runSettings .badValue
  | some h, some r =>
    if !r.inRange h.dots then s.answer p .runSettings .badValue
    else if s.settingsBusy then s.answer p .runSettings .engineBusy
    else (s.loadSettings r).accept p .runSettings []

/-- RUN-SETTINGS (R184). -/
def execRunSettings (p : Port) (body : List Byte) (s : State) : Host.Outcome State Fault Refusal :=
  s.record p .runSettings body parseRunSettings fun r s => s.takeRunSettings p r

/-! ### RETAIN-SCOPE (R52) -/

/-- RETAIN-SCOPE once its body is read (R52). -/
def State.takeRetainScope (s : State) (p : Port) (scope : Option Scope) : State :=
  match scope with
  | none => s.answer p .retainScope .badValue
  | some scope => (s.retainScope scope).accept p .retainScope []

/-- RETAIN-SCOPE (R52). -/
def execRetainScope (p : Port) (body : List Byte) (s : State) : Host.Outcome State Fault Refusal :=
  s.record p .retainScope body parseScope fun scope s => s.takeRetainScope p scope

/-! ### PORT-SETTINGS (R172) -/

/-- PORT-SETTINGS once its body is read (R172). -/
def State.takePortSettings (s : State) (p : Port) (t : Option PortSettings) : State :=
  match t with
  | none => s.answer p .portSettings .badValue
  | some t => (s.onPort p fun q => { q with settings := t }).accept p .portSettings []

/-- PORT-SETTINGS (R172). -/
def execPortSettings (p : Port) (body : List Byte) (s : State) : Host.Outcome State Fault Refusal :=
  s.record p .portSettings body parsePortSettings fun t s => s.takePortSettings p t

/-! ### ENGINE-QUERY (R185) -/

/-- An engine state's number in a reply (R185). -/
def EngineMode.number : EngineMode → Nat
  | .unset => 0
  | .stopped => 1
  | .registering => 2
  | .burning => 3
  | .paused => 4
  | .presenting => 5
  | .retracting => 6
  | .dry => 7
  | .fault => 8

/-- The reply data of ENGINE-QUERY: 10 bytes (R185). -/
def State.engineReport (s : State) : List Byte :=
  byte1 s.engine.mode.number ++ s.engine.faults.byte ++ flag1 s.engine.hot ++ flag1 s.engine.registered ++
    signed1 s.engine.temperature ++ byte2 s.engine.voltage ++ flag1 s.retainedLost ++ flag1 s.profile.isSome ++
    flag1 s.settings.isSome

/-- ENGINE-QUERY (R185). -/
def execEngineQuery (p : Port) (body : List Byte) (s : State) : Host.Outcome State Fault Refusal :=
  s.record p .engineQuery body parseEmpty fun _ s => s.accept p .engineQuery s.engineReport

end Sys2Proof.Machine
end

