-- ==== Sys2Proof/Machine/FormRecords.lean ====
section
/-! DEFINITION. The form records: FORM-BEGIN, FIELD-DEF, STENCIL-DEF, FORM-END, FORM-DELETE and FORM-QUERY (R14 to R19). -/

namespace Sys2Proof.Machine

/-! ### FORM-BEGIN (R14) -/

/-- The form a FORM-BEGIN starts: no fields, no stencils, owned by the sender (R2, R14). -/
def FormBegin.form (r : FormBegin) (owner : Port) : Form where
  owner := owner
  shared := r.shared
  length := r.length
  width := r.width
  printPlanes := r.printPlanes
  mergeTimeout := r.mergeTimeout
  policy := r.policy
  fields := []
  stencils := []

/-- FORM-BEGIN once its body is read; none stands for a value out of its range (R14). -/
def State.takeFormBegin (s : State) (p : Port) (r : Option FormBegin) : State :=
  match r with
  | none => s.answer p .formBegin .badValue
  | some r =>
    if (s.definingSlot p).isSome then s.answer p .formBegin .badSequence
    else
      match s.slot r.number with
      | .defining _ => s.answer p .formBegin .notOwner
      | .active f =>
        if f.owner != p then s.answer p .formBegin .notOwner
        else if 0 < s.useCount r.number then s.answer p .formBegin .formInUse
        else ((s.setSlot r.number (.defining (r.form p))).retainForm r.number none).accept p .formBegin []
      | .empty => (s.setSlot r.number (.defining (r.form p))).accept p .formBegin []

/-- FORM-BEGIN (R14). -/
def execFormBegin (p : Port) (body : List Byte) (s : State) : Host.Outcome State Fault Refusal :=
  s.record p .formBegin body parseFormBegin fun r s => s.takeFormBegin p r

/-! ### FIELD-DEF (R15) -/

/-- The form a port is defining, with its number (R1). -/
def State.definingForm (s : State) (p : Port) : Option (Nat × Form) :=
  (s.definingSlot p).bind fun n => ((s.slot n).form?).map fun f => (n, f)

/-- FIELD-DEF once its body is read; none stands for a value out of its range (R15). -/
def State.takeFieldDef (s : State) (p : Port) (r : Option Field) : State :=
  match s.definingForm p, r with
  | none, _ => s.answer p .fieldDef .badSequence
  | some _, none => s.answer p .fieldDef .badValue
  | some (n, f), some r =>
    if (f.field? r.number).isSome then s.answer p .fieldDef .badValue
    else if s.fieldsFree < 1 || s.textFree < r.fixedText.length + r.fallback.length then s.answer p .fieldDef .storeFull
    else (s.setSlot n (.defining { f with fields := f.fields ++ [r] })).accept p .fieldDef []

/-- FIELD-DEF (R15). -/
def execFieldDef (p : Port) (body : List Byte) (s : State) : Host.Outcome State Fault Refusal :=
  s.record p .fieldDef body parseFieldDef fun r s => s.takeFieldDef p r

/-! ### STENCIL-DEF (R16) -/

/-- STENCIL-DEF once its body is read (R16). -/
def State.takeStencilDef (s : State) (p : Port) (r : StencilDef) : State :=
  match s.definingForm p with
  | none => s.answer p .stencilDef .badSequence
  | some (n, f) =>
    if !(1 ≤ r.number && r.number ≤ 8 && 1 ≤ r.count && r.count ≤ 64) || (f.stencil? r.number).isSome then
      s.answer p .stencilDef .badValue
    else if r.bytes.length ≠ 4 * r.count then s.answer p .stencilDef .badLength
    else if s.rowsFree < r.count then s.answer p .stencilDef .storeFull
    else
      (s.setSlot n (.defining { f with
        stencils := f.stencils ++ [{ number := r.number, rows := stencilRows r.count r.bytes }] })).accept p .stencilDef []

/-- STENCIL-DEF (R16). -/
def execStencilDef (p : Port) (body : List Byte) (s : State) : Host.Outcome State Fault Refusal :=
  s.record p .stencilDef body parseStencilDef fun r s => s.takeStencilDef p r

/-! ### FORM-END (R17) -/

/-- Whether a field's stencil, if it names one, is in the form (R12, R17). -/
def Form.hasStencilOf (f : Form) (x : Field) : Bool :=
  match x.part with
  | .stamp n _ _ => (f.stencil? n).isSome
  | _ => true

/-- Whether a form may become ACTIVE (R17). -/
def Form.complete (f : Form) : Bool := !f.fields.isEmpty && f.fields.all f.hasStencilOf

/-- FORM-END taken (R17). -/
def State.takeFormEnd (s : State) (p : Port) : State :=
  match s.definingForm p with
  | none => s.answer p .formEnd .badSequence
  | some (n, f) =>
    if f.complete then ((s.setSlot n (.active f)).retainForm n (some f)).accept p .formEnd []
    else s.answer p .formEnd .formIncomplete

/-- FORM-END (R17). -/
def execFormEnd (p : Port) (body : List Byte) (s : State) : Host.Outcome State Fault Refusal :=
  s.record p .formEnd body parseEmpty fun _ s => s.takeFormEnd p

/-! ### FORM-DELETE (R18) -/

/-- FORM-DELETE once its body is read (R18). -/
def State.takeFormDelete (s : State) (p : Port) (n : Nat) : State :=
  if n < 1 ∨ 32 < n then s.answer p .formDelete .badValue
  else
    match s.slot n with
    | .empty => s.answer p .formDelete .formMissing
    | .defining f =>
      if f.owner != p then s.answer p .formDelete .notOwner else (s.setSlot n .empty).accept p .formDelete []
    | .active f =>
      if f.owner != p then s.answer p .formDelete .notOwner
      else if 0 < s.useCount n then s.answer p .formDelete .formInUse
      else ((s.setSlot n .empty).retainForm n none).accept p .formDelete []

/-- FORM-DELETE (R18). -/
def execFormDelete (p : Port) (body : List Byte) (s : State) : Host.Outcome State Fault Refusal :=
  s.record p .formDelete body parseByte fun n s => s.takeFormDelete p n

/-! ### FORM-QUERY (R19) -/

/-- A slot's state in a reply: 0 EMPTY, 1 DEFINING, 2 ACTIVE (R1, R173). -/
def Slot.number : Slot → Nat
  | .empty => 0
  | .defining _ => 1
  | .active _ => 2

/-- A kind's number (R174). -/
def KindPart.number : KindPart → Nat
  | .text .. => 0
  | .barcode .. => 1
  | .box .. => 2
  | .stamp .. => 3

/-- A source's number, and the port or counter it names, 0 when it names none (R174; log 21). -/
def Source.numbers : Source → Nat × Nat
  | .fixed => (0, 0)
  | .job => (1, 0)
  | .contrib p => (2, p.val)
  | .counter c _ => (3, c.val)
  | .copyIndex => (4, 0)

/-- A merge policy's number (R2, R173). -/
def MergePolicy.number : MergePolicy → Nat
  | .fallback => 0
  | .hold => 1
  | .void => 2

/-- What FORM-QUERY says of a field (R19). -/
def Field.report (x : Field) : List Byte :=
  byte1 x.number ++ byte1 x.part.number ++ byte1 x.source.numbers.1 ++ byte1 x.source.numbers.2 ++ flag1 x.required ++
    packText x.fallback

/-- What FORM-QUERY says of a stencil (R19). -/
def Stencil.report (x : Stencil) : List Byte := byte1 x.number ++ byte1 x.rows.length

/-- The values of R2 taken from FORM-BEGIN, in their order (R14, R19). -/
def Form.beginBytes (f : Form) (n : Nat) : List Byte :=
  byte1 n ++ flag1 f.shared ++ byte2 f.length ++ byte2 f.width ++ byte1 f.printPlanes.toNat ++ byte1 f.mergeTimeout ++
    byte1 f.policy.number

/-- What FORM-QUERY says of one form (R19). Stencils stand in the order in which they were defined (log 30: DESIGN CHOICE). -/
def State.formReport (s : State) (n : Nat) : List Byte :=
  byte1 (s.slot n).number ++
    match (s.slot n).form? with
    | none => []
    | some f =>
      byte1 f.owner.val ++ f.beginBytes n ++ byte1 (s.useCount n) ++ byte1 f.fields.length ++ byte1 f.stencils.length ++
        f.fields.flatMap Field.report ++ f.stencils.flatMap Stencil.report

/-- What FORM-QUERY 0 says of one slot (R19). -/
def State.slotReport (s : State) (n : Nat) : List Byte :=
  byte1 (s.slot n).number ++
    match (s.slot n).form? with
    | none => []
    | some f => byte1 f.owner.val ++ byte1 (s.useCount n)

/-- The reply data of FORM-QUERY (R19). -/
def State.formQueryData (s : State) (n : Nat) : List Byte :=
  byte2 s.fieldsFree ++ byte2 s.textFree ++ byte2 s.rowsFree ++
    if n = 0 then (List.range 32).flatMap (fun k => s.slotReport (k + 1)) else s.formReport n

/-- FORM-QUERY once its body is read (R19). -/
def State.takeFormQuery (s : State) (p : Port) (n : Nat) : State :=
  if 32 < n then s.answer p .formQuery .badValue else s.accept p .formQuery (s.formQueryData n)

/-- FORM-QUERY (R19). -/
def execFormQuery (p : Port) (body : List Byte) (s : State) : Host.Outcome State Fault Refusal :=
  s.record p .formQuery body parseByte fun n s => s.takeFormQuery p n

end Sys2Proof.Machine
end

