-- ==== Sys2Proof/Machine/CounterRecords.lean ====
section
/-! DEFINITION. The counter records: COUNTER-SET, COUNTER-FREE and COUNTER-QUERY (R40 to R43). -/

namespace Sys2Proof.Machine

/-! ### COUNTER-SET (R40, R41) -/

/-- A counter set: its definition stored, the COUNTER holds naming it removed, the retained copy rewritten (R40, R41). -/
def State.setCounter (s : State) (c : CounterNo) (k : Counter) : State :=
  State.retainCounters { s with
    counters := s.counters.set c (some k)
    queue := s.queue.map fun j => if j.counterHold = some c then { j with counterHold := none } else j }

/-- COUNTER-SET once its body is read (R40, R41). -/
def State.takeCounterSet (s : State) (p : Port) (r : CounterSet) : State :=
  match r.checked p with
  | none => s.answer p .counterSet .badValue
  | some (c, k) =>
    if (s.counters[c]).any (fun old => old.owner != p) then s.answer p .counterSet .notOwner
    else ((s.setCounter c k).accept p .counterSet []).onPort p PortState.clearExhausted

/-- COUNTER-SET (R40). -/
def execCounterSet (p : Port) (body : List Byte) (s : State) : Host.Outcome State Fault Refusal :=
  s.record p .counterSet body parseCounterSet fun r s => s.takeCounterSet p r

/-! ### COUNTER-FREE (R42) -/

/-- A counter number 0 to 7. -/
def counterNo (n : Nat) : Option CounterNo := if h : n < 8 then some ⟨n, h⟩ else none

/-- COUNTER-FREE once its body is read (R42). -/
def State.takeCounterFree (s : State) (p : Port) (n : Nat) : State :=
  match counterNo n with
  | none => s.answer p .counterFree .badValue
  | some c =>
    match s.counters[c] with
    | none => s.answer p .counterFree .ignored
    | some k =>
      if k.owner != p then s.answer p .counterFree .notOwner
      else (State.retainCounters { s with counters := s.counters.set c none }).accept p .counterFree []

/-- COUNTER-FREE (R42). -/
def execCounterFree (p : Port) (body : List Byte) (s : State) : Host.Outcome State Fault Refusal :=
  s.record p .counterFree body parseByte fun n s => s.takeCounterFree p n

/-! ### COUNTER-QUERY (R43) -/

/-- A counter policy's number (R39, R173). -/
def CounterPolicy.number : CounterPolicy → Nat
  | .stop => 0
  | .wrap => 1

/-- What COUNTER-QUERY says of one counter (R43). -/
def counterReport : Option Counter → List Byte
  | none => byte1 0
  | some k =>
    byte1 1 ++ byte1 k.owner.val ++ byte4 k.value ++ signed2 k.step ++ byte4 k.low ++ byte4 k.high ++ byte1 k.policy.number ++
      flag1 k.exhausted

/-- COUNTER-QUERY once its body is read (R43). -/
def State.takeCounterQuery (s : State) (p : Port) (n : Nat) : State :=
  match counterNo n with
  | some c => s.accept p .counterQuery (counterReport s.counters[c])
  | none =>
    if n = 8 then s.accept p .counterQuery (s.counters.toList.flatMap counterReport) else s.answer p .counterQuery .badValue

/-- COUNTER-QUERY (R43). -/
def execCounterQuery (p : Port) (body : List Byte) (s : State) : Host.Outcome State Fault Refusal :=
  s.record p .counterQuery body parseByte fun n s => s.takeCounterQuery p n

end Sys2Proof.Machine
end

