-- ==== Sys2Proof/Machine/JobRecords.lean ====
section
/-! DEFINITION. The job records: JOB-OPEN, FIELD-DATA, JOB-CLOSE, DISCARD, JOB-HOLD, JOB-RELEASE, JOB-CANCEL and JOB-QUERY (R58 to R72,
R77), with the part of the Merge Unit that JOB-OPEN and JOB-CLOSE call for (R82, R86, R87). -/

namespace Sys2Proof.Machine

/-! ### The merge of a job (R79, R82, R86, R87) -/

/-- The field for a contribution: the form's CONTRIB field of that number and port (R79). -/
def Form.contribField? (f : Form) (n : Nat) (p : Port) : Option Field :=
  f.fields.find? (fun x => x.number == n && x.source == .contrib p)

/-- After contributions were stored: when no required field is missing, the timer is stopped and MERGE-TIMEOUT removed (R82). -/
def State.mergeFilled (s : State) (n : Nat) : State :=
  s.onJob n fun j => if (s.missing j).isEmpty then { j with timer := none, mergeTimeout := false } else j

/-- Whether a pool entry is moved into a job on a form, rather than discarded (R86). -/
def Form.admits (f : Form) (e : PoolEntry) : Bool := (f.contribField? e.field e.port).isSome

/-- CONTRIB-REFUSED posted to the port of each of some pool entries that are gone (R85, R86). -/
def State.refuseContribs (s : State) (gone : List PoolEntry) : State :=
  (List.finRange 4).foldl (fun s p => if gone.any (fun e => e.port == p) then s.post p .contribRefused else s) s

/-- The pool entries with a job's key taken from the pool: moved into the job where the form has the field, else discarded with
CONTRIB-REFUSED to their ports (R86). Moved entries keep the order in which they were pooled (log 30: DESIGN CHOICE). -/
def State.sweepPool (s : State) (n : Nat) (f : Form) (key : Text) : State :=
  let mine := s.pool.filter (fun e => e.key == key)
  let moved := (mine.filter f.admits).map fun e => { field := e.field, port := e.port, value := e.value : Contribution }
  let s := { s with pool := s.pool.filter (fun e => e.key != key) }.onJob n fun j => { j with contribs := j.contribs ++ moved }
  (s.refuseContribs (mine.filter (fun e => !f.admits e))).mergeFilled n

/-! ### JOB-OPEN (R57 to R59) -/

/-- The record of a job just opened (R55). -/
def JobOpen.job (r : JobOpen) (number : Nat) (origin : Port) : Job where
  number := number
  origin := origin
  key := r.key
  form := r.form
  total := r.total
  composed := 0
  completed := 0
  cls := r.cls
  closed := false
  operator := false
  mergeTimeout := false
  counterHold := none
  cancelled := false
  data := []
  contribs := []
  timer := none
  marks := []

/-- The number the next job gets: 17 tries always find one (R57). -/
def State.nextFreeNumber (s : State) : Nat := freeNumber s.queue 17 s.nextJob

/-- A job opened: numbered, placed in the queue, discard state ended, pool entries with its key moved in (R58, R86). -/
def State.openJob (s : State) (p : Port) (r : JobOpen) (f : Form) : State :=
  let n := s.nextFreeNumber
  let s := { s with nextJob := nextNumber n, queue := placeJob (r.job n p) s.queue }.onPort p fun q => { q with discard := false }
  match r.key with
  | none => s
  | some k => s.sweepPool n f k

/-- The checks of JOB-OPEN beyond its values, in the order of R58: the first refusal, if any. -/
def State.openRefusal (s : State) (p : Port) (r : JobOpen) (h : HeadProfile) : Option ReplyCode :=
  if (s.openJob? p).isSome then some .badSequence
  else
    match s.activeForm r.form with
    | none => some .formMissing
    | some f =>
      if !f.shared && f.owner != p then some .notOwner
      else if h.dots < f.width then some .formTooWide
      else if f.fields.any (·.source.isContrib) && r.key.isNone then some .badValue
      else if r.key.any (fun k => (s.jobWithKey? k).isSome) then some .duplicateKey
      else if 16 ≤ s.queue.length then some .queueFull
      else none

/-- JOB-OPEN once its body is read; none stands for a value refused by the first check of R58. -/
def State.takeJobOpen (s : State) (p : Port) (r : Option JobOpen) : State :=
  match r, s.profile with
  | none, _ => s.answer p .jobOpen .badValue
  | some _, none => s.answer p .jobOpen .notSetUp
  | some r, some h =>
    match s.openRefusal p r h, s.activeForm r.form with
    | some code, _ => s.answer p .jobOpen code
    | none, some f => (s.openJob p r f).accept p .jobOpen (byte2 s.nextFreeNumber)
    | none, none => s.answer p .jobOpen .formMissing

/-- JOB-OPEN (R58). -/
def execJobOpen (p : Port) (body : List Byte) (s : State) : Host.Outcome State Fault Refusal :=
  s.record p .jobOpen body parseJobOpen fun r s => s.takeJobOpen p r

/-! ### FIELD-DATA (R61) -/

/-- The value a job holds for a field number. -/
def Job.dataValue? (j : Job) (n : Nat) : Option Text := (j.data.find? (fun d => d.1 == n)).map (·.2)

/-- A value stored for a field, in place of any value before (R61), in whose place in the list it stands (log 30: DESIGN CHOICE). -/
def Job.putData (j : Job) (n : Nat) (v : Text) : Job :=
  { j with
    data := if (j.dataValue? n).isSome then j.data.map (fun d => if d.1 = n then (n, v) else d) else j.data ++ [(n, v)] }

/-- Whether a form has a field of that number with source JOB (R61). -/
def Form.hasJobField (f : Form) (n : Nat) : Bool := f.fields.any (fun x => x.number == n && x.source == .job)

/-- FIELD-DATA once its body is read (R61). -/
def State.takeFieldData (s : State) (p : Port) (n : Nat) (v : Text) : State :=
  if (s.port p).discard then s.answer p .fieldData .ignored
  else
    match s.openJob? p with
    | none => s.answer p .fieldData .badSequence
    | some j =>
      if n < 1 ∨ 96 < n ∨ 64 < v.length then s.answer p .fieldData .badValue
      else if !(s.activeForm j.form).any (·.hasJobField n) then s.answer p .fieldData .noSuchField
      else if !s.storeTakes ((j.dataValue? n).elim 0 List.length) v.length then s.answer p .fieldData .storeFull
      else (s.onJob j.number (·.putData n v)).accept p .fieldData []

/-- FIELD-DATA (R61). -/
def execFieldData (p : Port) (body : List Byte) (s : State) : Host.Outcome State Fault Refusal :=
  s.record p .fieldData body parseFieldData fun r s => s.takeFieldData p r.1 r.2

/-! ### JOB-CLOSE (R62, R87) -/

/-- The merge timer started at a close: only where a required field is missing and the form's timeout is not 0 (R87). -/
def State.startTimer (s : State) (n : Nat) (f : Form) : State :=
  s.onJob n fun j => { j with timer := if !(s.missing j).isEmpty && 0 < f.mergeTimeout then some f.mergeTimeout else none }

/-- A job closed: the pool swept once more, the merge timer started where called for (R62, R87). -/
def State.closeJob (s : State) (j : Job) : State :=
  let s := s.onJob j.number fun j => { j with closed := true }
  match s.activeForm j.form with
  | none => s
  | some f =>
    let s := match j.key with
      | none => s
      | some k => s.sweepPool j.number f k
    s.startTimer j.number f

/-- JOB-CLOSE taken (R62). -/
def State.takeJobClose (s : State) (p : Port) : State :=
  if (s.port p).discard then s.answer p .jobClose .ignored
  else
    match s.openJob? p with
    | none => s.answer p .jobClose .badSequence
    | some j => (s.closeJob j).accept p .jobClose []

/-- JOB-CLOSE (R62). -/
def execJobClose (p : Port) (body : List Byte) (s : State) : Host.Outcome State Fault Refusal :=
  s.record p .jobClose body parseEmpty fun _ s => s.takeJobClose p

/-! ### DISCARD (R63) -/

/-- A port's OPEN job, if any, leaves the queue (R63, R64). -/
def State.dropOpenJob (s : State) (p : Port) : State :=
  match s.openJob? p with
  | none => s
  | some j => s.leaveQueue j.number

/-- DISCARD (R63). -/
def execDiscard (p : Port) (body : List Byte) (s : State) : Host.Outcome State Fault Refusal :=
  s.record p .discard body parseEmpty fun _ s =>
    ((s.dropOpenJob p).onPort p fun q => { q with discard := true }).accept p .discard []

/-! ### JOB-HOLD, JOB-RELEASE (R68, R69) -/

/-- The job a record names and its sender may change: the refusals BAD-VALUE, JOB-MISSING and NOT-OWNER, in that order, or the job
(R68, R69, R71). -/
def State.ownJob (s : State) (p : Port) (n : Nat) : Except ReplyCode Job :=
  if n < 1 ∨ 4095 < n then .error .badValue
  else
    match s.job? n with
    | none => .error .jobMissing
    | some j => if j.origin != p then .error .notOwner else .ok j

/-- JOB-HOLD once its body is read (R68). -/
def State.takeJobHold (s : State) (p : Port) (n : Nat) : State :=
  match s.ownJob p n with
  | .error code => s.answer p .jobHold code
  | .ok j =>
    if s.jobState j = .opened then s.answer p .jobHold .badSequence
    else if s.jobState j = .draining || j.operator then s.answer p .jobHold .ignored
    else (s.onJob n fun j => { j with operator := true }).accept p .jobHold []

/-- JOB-HOLD (R68). -/
def execJobHold (p : Port) (body : List Byte) (s : State) : Host.Outcome State Fault Refusal :=
  s.record p .jobHold body parseNumber fun n s => s.takeJobHold p n

/-- JOB-RELEASE once its body is read (R69). -/
def State.takeJobRelease (s : State) (p : Port) (n : Nat) : State :=
  match s.ownJob p n with
  | .error code => s.answer p .jobRelease code
  | .ok j =>
    if s.jobState j = .opened || !j.operator then s.answer p .jobRelease .ignored
    else (s.onJob n fun j => { j with operator := false }).accept p .jobRelease []

/-- JOB-RELEASE (R69). -/
def execJobRelease (p : Port) (body : List Byte) (s : State) : Host.Outcome State Fault Refusal :=
  s.record p .jobRelease body parseNumber fun n s => s.takeJobRelease p n

/-! ### JOB-CANCEL (R71, R72) -/

/-- A job cancelled: out at once when nothing is composed, else in flight: the ring, the composer and the redo list first, then the
engine (R71, R72, R112). -/
def State.cancelJob (s : State) (j : Job) : State :=
  if j.composed = 0 then s.leaveQueue j.number else (s.cancelInRing j.number).settle.cancelAtEngine j.number

/-- JOB-CANCEL once its body is read (R71). -/
def State.takeJobCancel (s : State) (p : Port) (n : Nat) : State :=
  match s.ownJob p n with
  | .error code => s.answer p .jobCancel code
  | .ok j => if j.cancelled then s.answer p .jobCancel .ignored else (s.cancelJob j).accept p .jobCancel []

/-- JOB-CANCEL (R71). -/
def execJobCancel (p : Port) (body : List Byte) (s : State) : Host.Outcome State Fault Refusal :=
  s.record p .jobCancel body parseNumber fun n s => s.takeJobCancel p n

/-! ### JOB-QUERY (R77) -/

/-- A job state's number (R55, R173). -/
def JobState.number : JobState → Nat
  | .opened => 0
  | .assembling => 1
  | .ready => 2
  | .active => 3
  | .draining => 4
  | .held => 5

/-- A class's number (R174). -/
def JobClass.number : JobClass → Nat
  | .normal => 0
  | .rush => 1

/-- What JOB-QUERY says of every job (R77). -/
def State.jobReport (s : State) (j : Job) : List Byte :=
  byte2 j.number ++ byte1 j.origin.val ++ packText (j.key.getD []) ++ byte1 j.form ++ byte1 j.cls.number ++
    byte1 (s.jobState j).number ++ j.holdBytes ++ flag1 j.cancelled ++ byte2 j.total ++ byte2 j.composed ++ byte2 j.completed

/-- What JOB-QUERY says of one job asked for by number (R77). Missing fields stand in the form's field-list order, marks in the order in
which they were given (log 30: DESIGN CHOICE). -/
def State.jobDetail (s : State) (j : Job) : List Byte :=
  s.jobReport j ++ packList (fun d => byte1 d.1 ++ byte1 d.2.length) j.data ++
    packList (fun c => byte1 c.field ++ byte1 c.port.val ++ byte1 c.value.length) j.contribs ++ packList byte1 (s.missing j) ++
    packList byte1 j.marks ++ byte1 (j.timer.getD 0)

/-- The reply data of JOB-QUERY 0 (R77). -/
def State.queueReport (s : State) : List Byte :=
  byte2 s.valuesFree ++ byte1 s.redo.length ++ packList s.jobReport s.queue

/-- JOB-QUERY once its body is read; accepted, it is the clearing record of JOB-HELD (R77, R178). -/
def State.takeJobQuery (s : State) (p : Port) (n : Nat) : State :=
  if 4095 < n then s.answer p .jobQuery .badValue
  else if n = 0 then (s.accept p .jobQuery s.queueReport).onPort p PortState.clearHeld
  else
    match s.job? n with
    | none => s.answer p .jobQuery .jobMissing
    | some j => (s.accept p .jobQuery (s.jobDetail j)).onPort p PortState.clearHeld

/-- JOB-QUERY (R77). -/
def execJobQuery (p : Port) (body : List Byte) (s : State) : Host.Outcome State Fault Refusal :=
  s.record p .jobQuery body parseNumber fun n s => s.takeJobQuery p n

end Sys2Proof.Machine
end

