-- ==== Sys2Proof/Machine/MergeEvents.lean ====
section
/-! DEFINITION. The Merge Unit: CONTRIBUTE, the merge timers and the ageing of the contribution pool (chapter 5). -/

namespace Sys2Proof.Machine

/-! ### CONTRIBUTE (R79 to R84) -/

/-- A contribution stored in a job: in place of any for its field, the fallback mark removed (R81). A replaced one keeps its place in the
list (log 30: DESIGN CHOICE). -/
def Job.putContrib (j : Job) (c : Contribution) : Job :=
  { j with
    contribs :=
      if j.contribs.any (fun x => x.field == c.field) then j.contribs.map (fun x => if x.field = c.field then c else x)
      else j.contribs ++ [c]
    marks := j.marks.filter (· != c.field) }

/-- The length of the contribution a job holds for a field, 0 when none (R81). -/
def Job.contribLength (j : Job) (n : Nat) : Nat := (j.contribs.find? (fun c => c.field == n)).elim 0 (·.value.length)

/-- Whether a pool entry has a key, port and field number (R83). -/
def PoolEntry.isFor (e : PoolEntry) (key : Text) (p : Port) (field : Nat) : Bool := e.key == key && e.port == p && e.field == field

/-- A contribution placed in the pool: in place of the entry of its key, port and field, or as a new entry of age 0 (R84). -/
def State.pooled (s : State) (p : Port) (r : Contribute) : State :=
  let entry : PoolEntry := { key := r.key, port := p, field := r.field, value := r.value, age := 0 }
  { s with
    pool := if s.pool.any (·.isFor r.key p r.field) then s.pool.map (fun e => if e.isFor r.key p r.field then entry else e)
      else s.pool ++ [entry] }

/-- CONTRIBUTE with a job queued for its key (R80, R81). -/
def State.contributeToJob (s : State) (p : Port) (r : Contribute) (j : Job) : State :=
  if !(s.activeForm j.form).any (fun f => (f.contribField? r.field p).isSome) then s.answer p .contribute .noSuchField
  else if j.cancelled || 0 < j.composed then s.answer p .contribute .tooLate
  else if !s.storeTakes (j.contribLength r.field) r.value.length then s.answer p .contribute .storeFull
  else
    ((s.onJob j.number (·.putContrib { field := r.field, port := p, value := r.value })).mergeFilled j.number).accept p .contribute
      (byte1 1 ++ byte2 j.number)

/-- CONTRIBUTE with no job queued for its key (R80, R84). -/
def State.contributeToPool (s : State) (p : Port) (r : Contribute) : State :=
  match s.pool.find? (·.isFor r.key p r.field) with
  | some e =>
    if !s.storeTakes e.value.length r.value.length then s.answer p .contribute .storeFull
    else (s.pooled p r).accept p .contribute (byte1 0 ++ byte2 0)
  | none =>
    if 24 ≤ s.pool.length then s.answer p .contribute .poolFull
    else if !s.storeTakes 0 r.value.length then s.answer p .contribute .storeFull
    else (s.pooled p r).accept p .contribute (byte1 0 ++ byte2 0)

/-- CONTRIBUTE once its body is read (R80). -/
def State.takeContribute (s : State) (p : Port) (r : Contribute) : State :=
  if !r.inRange then s.answer p .contribute .badValue
  else
    match s.jobWithKey? r.key with
    | some j => s.contributeToJob p r j
    | none => s.contributeToPool p r

/-- CONTRIBUTE (R80). -/
def execContribute (p : Port) (body : List Byte) (s : State) : Host.Outcome State Fault Refusal :=
  s.record p .contribute body parseContribute fun r s => s.takeContribute p r

/-! ### The merge timer (R88 to R91) -/

/-- The form's merge policy acts on a job whose timer has run out (R89 to R91). Fallback marks are a set (R55); the list that holds them
takes new ones at its end, in the form's field-list order (log 30: DESIGN CHOICE). -/
def State.expire (s : State) (j : Job) (policy : MergePolicy) : State :=
  let s := s.onJob j.number fun j => { j with timer := none }
  match policy with
  | .fallback => s.onJob j.number fun j => { j with marks := j.marks ++ s.missing j }
  | .hold => (s.onJob j.number fun j => { j with mergeTimeout := true }).post j.origin .jobHeld
  | .void => (s.placeCompletion (mergeVoidReport j)).leaveQueue j.number

/-- A merge timer's expiry: enabled in its last second or at 0 (R89; log 14). -/
def State.timerExpires (s : State) (n : Nat) : State :=
  match s.job? n with
  | none => s
  | some j =>
    match s.activeForm j.form with
    | none => s
    | some f => if j.timer.any (· ≤ 1) then s.expire j f.policy else s

/-- MERGE-TIMER-EXPIRY (R89). -/
def execMergeTimerExpiry (n : Nat) (s : State) : Host.Outcome State Fault Refusal := s.running (·.timerExpires n)

/-- MERGE-TIMER-SECOND (R88). -/
def execMergeTimerSecond (n : Nat) (s : State) : Host.Outcome State Fault Refusal :=
  s.running fun s => s.onJob n fun j => { j with timer := j.timer.map (· - 1) }

/-! ### The pool's ageing (R85) -/

/-- Pool entries out of the pool: their values are free, and CONTRIB-REFUSED is posted to their ports (R85). -/
def State.dropEntries (s : State) (out : PoolEntry → Bool) : State :=
  { s with pool := s.pool.filter (fun e => !out e) }.refuseContribs (s.pool.filter out)

/-- A pool entry discarded. The command is the moment its age reaches 30 s, whatever its count of idle seconds says (R85; log 13). -/
def State.discardEntry (s : State) (key : Text) (p : Port) (field : Nat) : State := s.dropEntries (·.isFor key p field)

/-- POOL-ENTRY-DISCARD (R85). -/
def execPoolEntryDiscard (key : Text) (p : Port) (field : Nat) (s : State) : Host.Outcome State Fault Refusal :=
  s.running (·.discardEntry key p field)

/-- A whole second passes for the pool: every age rises by one, and an entry whose age reaches 30 is discarded (R85; log 13). -/
def State.poolSecond (s : State) : State :=
  State.dropEntries { s with pool := s.pool.map fun e => { e with age := e.age + 1 } } (fun e => 30 ≤ e.age)

/-- What the empty queue's step does: a whole second passes for the contribution pool while the part runs, and nothing else changes (log
13: DESIGN CHOICE). -/
def State.idle (s : State) : State := if s.held then s else s.poolSecond

end Sys2Proof.Machine
end

