-- ==== Sys2Proof/Machine/EngineRecords.lean ====
section
/-! DEFINITION. The engine's records: FEED, DRY-RUN-ON and DRY-RUN-OFF (R153, R155, R161). -/

namespace Sys2Proof.Machine

/-- FEED taken (R153). -/
def State.takeFeed (s : State) (p : Port) : State :=
  if s.engine.mode = .stopped then s.startFeed.accept p .feed [] else s.answer p .feed .engineBusy

/-- FEED (R153). -/
def execFeed (p : Port) (body : List Byte) (s : State) : Host.Outcome State Fault Refusal :=
  s.record p .feed body parseEmpty fun _ s => s.takeFeed p

/-- DRY entered from STOPPED; a band that waits is taken (R155, R156). -/
def State.enterDry (s : State) : State :=
  (s.onEngine fun e => { e with mode := .dry, dryLine := none, leavingDry := false }).dryTake

/-- DRY-RUN-ON taken (R155). -/
def State.takeDryRunOn (s : State) (p : Port) : State :=
  if s.engine.mode = .stopped then s.enterDry.accept p .dryRunOn [] else s.answer p .dryRunOn .engineBusy

/-- DRY-RUN-ON (R155). -/
def execDryRunOn (p : Port) (body : List Byte) (s : State) : Host.Outcome State Fault Refusal :=
  s.record p .dryRunOn body parseEmpty fun _ s => s.takeDryRunOn p

/-- Dry run is to be left: after the band in consumption, or at once (R161). -/
def State.askToLeaveDry (s : State) : State :=
  if s.engine.dryLine.isSome then s.onEngine fun e => { e with leavingDry := true } else s.leaveDry

/-- DRY-RUN-OFF taken (R161). -/
def State.takeDryRunOff (s : State) (p : Port) : State :=
  if s.engine.mode = .dry && !s.engine.leavingDry then s.askToLeaveDry.accept p .dryRunOff []
  else s.answer p .dryRunOff .ignored

/-- DRY-RUN-OFF (R161). -/
def execDryRunOff (p : Port) (body : List Byte) (s : State) : Host.Outcome State Fault Refusal :=
  s.record p .dryRunOff body parseEmpty fun _ s => s.takeDryRunOff p

end Sys2Proof.Machine
end

