-- ==== Sys2Proof/Machine/VectorRecords.lean ====
section
/-! DEFINITION. VECTOR-QUERY, REPORT-READ, POSITION-WATCH, PORT-RESET and a record of an unknown kind (R168, R170, R175, R178 to R182). -/

namespace Sys2Proof.Machine

/-! ### VECTOR-QUERY (R178) -/

/-- The reply data of VECTOR-QUERY (R178). -/
def PortState.vectorReport (q : PortState) : List Byte := byte1 (shownNumber q.pending) ++ [q.pending] ++ byte1 q.reports.length

/-- VECTOR-QUERY (R178). -/
def execVectorQuery (p : Port) (body : List Byte) (s : State) : Host.Outcome State Fault Refusal :=
  s.record p .vectorQuery body parseEmpty fun _ s =>
    (s.accept p .vectorQuery (s.port p).vectorReport).onPort p PortState.queried

/-! ### REPORT-READ (R175, R180) -/

/-- An outcome's number (R175). -/
def LabelOutcome.number : LabelOutcome → Nat
  | .printed => 0
  | .voided => 1
  | .faulted => 2
  | .spoiled => 3
  | .dry => 4
  | .mergeVoid => 5

/-- The bytes of a completion report: 18 + k + 5c of them (R175). -/
def Completion.bytes (c : Completion) : List Byte :=
  byte1 0 ++ byte2 c.job ++ byte1 c.origin.val ++ packText (c.key.getD []) ++ byte1 c.form ++ byte2 c.copy ++ byte2 c.total ++
    byte1 c.outcome.number ++ packList (fun v => byte1 v.1.val ++ byte4 v.2) c.values ++ byte1 c.pauses ++ byte1 c.masked ++
    byte1 c.fallbacks ++ byte1 c.truncations ++ byte1 c.symbolErrors ++ flag1 c.mismatch

/-- The bytes of a band report: 10 of them (R175). -/
def BandReport.bytes (b : BandReport) : List Byte :=
  byte1 1 ++ byte2 b.job ++ byte2 b.copy ++ byte1 b.band ++ byte2 b.burned ++ byte2 b.check.toNat

/-- The bytes of a report (R175). -/
def Report.bytes : Report → List Byte
  | .completion c => c.bytes
  | .band b => b.bytes

/-- The reply data of REPORT-READ (R180). -/
def PortState.readReport (q : PortState) : List Byte :=
  flag1 q.displaced ++ byte1 q.reports.tail.length ++
    match q.reports with
    | [] => flag1 false
    | r :: _ => flag1 true ++ r.bytes

/-- What a REPORT-READ leaves: the oldest report gone, the displaced flag clear, and REPORT-WAITING cleared when it was the last (R179,
R180). -/
def PortState.reportTaken (q : PortState) : PortState :=
  let q' := { q with reports := q.reports.tail, displaced := false }
  if q.reports.length = 1 then q'.clearEvent .reportWaiting else q'

/-- REPORT-READ (R180). -/
def execReportRead (p : Port) (body : List Byte) (s : State) : Host.Outcome State Fault Refusal :=
  s.record p .reportRead body parseEmpty fun _ s =>
    (s.accept p .reportRead (s.port p).readReport).onPort p PortState.reportTaken

/-! ### POSITION-WATCH (R182) -/

/-- POSITION-WATCH once its body is read (R182). -/
def State.takePositionWatch (s : State) (p : Port) (w : PositionWatch) : State :=
  if w.job = 0 then (s.onPort p fun q => { q with watch := none }).accept p .positionWatch []
  else if 4095 < w.job ∨ w.copy < 1 ∨ 999 < w.copy then s.answer p .positionWatch .badValue
  else
    match s.job? w.job with
    | none => s.answer p .positionWatch .jobMissing
    | some j =>
      if j.total < w.copy ∨ (s.activeForm j.form).elim 0 Form.length ≤ w.line then s.answer p .positionWatch .badValue
      else (s.onPort p fun q => { q with watch := some w }).accept p .positionWatch []

/-- POSITION-WATCH (R182). -/
def execPositionWatch (p : Port) (body : List Byte) (s : State) : Host.Outcome State Fault Refusal :=
  s.record p .positionWatch body parsePositionWatch fun w s => s.takePositionWatch p w

/-! ### PORT-RESET (R168) -/

/-- The form a port is defining, if any, deleted (R20, R168). -/
def State.dropDefining (s : State) (p : Port) : State :=
  match s.definingSlot p with
  | none => s
  | some n => s.setSlot n .empty

/-- A port reset, in the order of R168. -/
def State.resetPort (s : State) (p : Port) : State := ((s.dropOpenJob p).dropDefining p).onPort p PortState.resetLine

/-- PORT-RESET (R168). -/
def execPortReset (p : Port) (body : List Byte) (s : State) : Host.Outcome State Fault Refusal :=
  s.record p .portReset body parseEmpty fun _ s => (s.resetPort p).accept p .portReset []

/-! ### A record of an unknown kind (R170) -/

/-- A record whose kind byte is no record kind: refused UNKNOWN-KIND (R170). -/
def execUnknownKind (p : Port) (kind : Byte) (body : List Byte) (s : State) : Host.Outcome State Fault Refusal :=
  if (kindOf kind).isSome then .next s else s.takeRecord p kind body fun s => s.reply p kind .unknownKind []

end Sys2Proof.Machine
end

