-- ==== Sys2Proof/Machine/LineEvents.lean ====
section
/-! DEFINITION. What arrives on the lines: a received character, the frame timeout, a line break (R163 to R168). -/

namespace Sys2Proof.Machine

/-- A character received by a port. A length byte lost at a full buffer is taken by the assembler as a free value (R167; log 12). -/
def State.receive (s : State) (p : Port) (char : Byte) : State :=
  let t := s.onPort p (·.receive (Config.lostByte s.freeTick) char)
  if (s.port p).loses then { t with freeTick := s.freeTick + 1 } else t

/-- RECEIVE-BYTE: a character with a framing error is not entered into the port (R163, R165). -/
def execReceiveByte (p : Port) (char : Byte) (framingError : Bool) (s : State) : Host.Outcome State Fault Refusal :=
  s.running fun s => if framingError then s else s.receive p char

/-- FRAME-TIMEOUT (R166). -/
def execFrameTimeout (p : Port) (s : State) : Host.Outcome State Fault Refusal := s.running (·.onPort p PortState.timeout)

/-- LINE-BREAK (R168). -/
def execLineBreak (p : Port) (s : State) : Host.Outcome State Fault Refusal := s.running (·.resetPort p)

end Sys2Proof.Machine
end

