-- ==== Sys2Proof/Machine/SensorEvents.lean ====
section
/-! DEFINITION. The sensor monitor and the lid switch (R119, R120, R150 to R152). -/

namespace Sys2Proof.Machine

/-- The latest readings stored: T clamped, V10 as delivered; hot mode judged (R119, R120). -/
def State.storeReading (s : State) (t : Int) (v : Nat) : State :=
  let t := clampInt (-20) 120 t
  s.onEngine fun e => { e with
    temperature := t, voltage := v, hot := s.profile.elim e.hot (fun h => judgeHot h.threshold t e.hot) }

/-- The fault set with what the latest readings clear taken out: OVERHEAT at T ≤ H, SUPPLY-LOW at V10 ≥ 195 (R150). -/
def State.readingClears (s : State) (f : FaultSet) : FaultSet :=
  let f := if s.profile.any (fun h => s.engine.temperature ≤ (h.threshold : Int)) then f.put .overheat false else f
  if 195 ≤ s.engine.voltage then f.put .supplyLow false else f

/-- The fault set with what the latest readings raise put in: OVERHEAT at T ≥ H + 15, SUPPLY-LOW at V10 < 190 (R150). -/
def State.readingRaises (s : State) (f : FaultSet) : FaultSet :=
  let f := if s.profile.any (fun h => h.overheats s.engine.temperature) then f.put .overheat true else f
  if s.engine.voltage < 190 then f.put .supplyLow true else f

/-- The faults a reading clears and raises. Where it does both, either is taken first (R152): Config.clearFirst says which (log 4). -/
def State.judgeReading (s : State) : State :=
  let f := s.engine.faults
  if s.readingClears f = f then s.joinFaults (s.readingRaises f)
  else if s.readingRaises f = f then s.leaveFaults (s.readingClears f)
  else
    let s' := { s with freeTick := s.freeTick + 1 }
    if Config.clearFirst s.freeTick then
      let s' := s'.leaveFaults (s.readingClears f)
      s'.joinFaults (s.readingRaises s'.engine.faults)
    else
      let s' := s'.joinFaults (s.readingRaises f)
      s'.leaveFaults (s.readingClears s'.engine.faults)

/-- SENSOR-READING (R119, R120, R150). -/
def execSensorReading (t : Int) (v : Nat) (s : State) : Host.Outcome State Fault Refusal :=
  s.running fun s => (s.storeReading t v).judgeReading

/-- LID-SWITCH-OPEN (R150, R151). -/
def execLidSwitchOpen (s : State) : Host.Outcome State Fault Refusal :=
  s.running fun s => s.joinFaults (s.engine.faults.put .headOpen true)

/-- The faults a lid close leaves (R150). -/
def FaultSet.lidClosed (f : FaultSet) : FaultSet := { f with headOpen := false, mediaOut := false, noGap := false }

/-- LID-SWITCH-CLOSED (R150, R152). -/
def execLidSwitchClosed (s : State) : Host.Outcome State Fault Refusal :=
  s.running fun s => s.leaveFaults s.engine.faults.lidClosed

end Sys2Proof.Machine
end

