-- ==== Sys2Proof/Machine/ComposerEvents.lean ====
section
/-! DEFINITION. The composer's steps: asking for a label, taking a buffer, the end of a band fill (R65, R99 to R103). -/

namespace Sys2Proof.Machine

/-- COMPOSER-ASK (R65, R99). -/
def execComposerAsk (s : State) : Host.Outcome State Fault Refusal :=
  s.running fun s => if s.composerAsks then s.answerAsk else s

/-- BAND-TAKE (R102). -/
def execBandTake (s : State) : Host.Outcome State Fault Refusal := s.running State.takeBuffer

/-- BAND-FILL-COMPLETE: the band is FULL, and the engine looks at what that lets it do (R103, R136). -/
def execBandFillComplete (s : State) : Host.Outcome State Fault Refusal :=
  s.running fun s => if s.filling?.isSome && s.hand.isSome then s.finishFill.engineLook else s

end Sys2Proof.Machine
end

