-- ==== Sys2Proof/Machine/MotionEvents.lean ====
section
/-! DEFINITION. The engine's own steps: the motor, the strobes, the taken sensor, dry-run consumption (R129, R133, R148, R149, R156). -/

namespace Sys2Proof.Machine

/-- FORWARD-STEP (R133). -/
def execForwardStep (gap : Bool) (s : State) : Host.Outcome State Fault Refusal := s.running (·.forwardStep gap)

/-- The line in progress changed. -/
def State.onLine (s : State) (f : Line → Line) : State := s.onEngine fun e => { e with line := e.line.map f }

/-- STROBE-PHASE-END (R129). -/
def execStrobePhaseEnd (s : State) : Host.Outcome State Fault Refusal := s.running (·.onLine Line.endPhase)

/-- PHASE-GAP-END (R129). -/
def execPhaseGapEnd (s : State) : Host.Outcome State Fault Refusal := s.running (·.onLine Line.endGap)

/-- DOT-CLASS-TIME-END (R129). -/
def execDotClassTimeEnd (dot : Nat) (s : State) : Host.Outcome State Fault Refusal := s.running (·.onLine (·.disableDot dot))

/-- Whether the taken sensor is being sampled: PRESENTING in PEEL mode (R148). -/
def State.samples (s : State) : Bool := s.engine.mode = .presenting && s.peels

/-- The absent count after a sample: one more up to 8, or 0; at 8 the label is taken and the count stands (R148). -/
def absentAfter (count : Nat) (absent : Bool) : Nat := if 8 ≤ count then count else if absent then count + 1 else 0

/-- TAKEN-SENSOR-SAMPLE (R148). -/
def execTakenSensorSample (absent : Bool) (s : State) : Host.Outcome State Fault Refusal :=
  s.running fun s =>
    if s.samples then s.onEngine fun e => { e with absent := absentAfter e.absent absent } else s

/-- The presented label taken: it ends PRINTED and the retract begins (R148, R149). -/
def State.labelTaken (s : State) : State :=
  match s.engine.heads.find? (·.out) with
  | none => s
  | some h => (s.endAtHead h .printed).retract

/-- LABEL-TAKEN: at the eighth consecutive absent sample (R148; log 15). -/
def execLabelTaken (s : State) : Host.Outcome State Fault Refusal :=
  s.running fun s => if s.samples && 7 ≤ s.engine.absent then s.labelTaken else s

/-- BACK-FEED-STEP (R149). -/
def execBackFeedStep (s : State) : Host.Outcome State Fault Refusal := s.running State.backFeed

/-- DRY-LINE-CONSUMED (R156). -/
def execDryLineConsumed (s : State) : Host.Outcome State Fault Refusal := s.running State.consumeLine

end Sys2Proof.Machine
end

