-- ==== Sys2Proof/Machine/ResetEvents.lean ====
section
/-! DEFINITION. The device reset input: asserted, with the rewrite of the retained image it cuts, and released (R51, R53, R186). -/

namespace Sys2Proof.Machine

/-! ### A rewrite cut (R51) -/

/-- The retained image an outcome leaves. -/
def State.imageAfter (s : State) : Host.Outcome State Fault Refusal → Image
  | .next t => t.retained.image
  | _ => s.retained.image

/-- The image that the first waiting command's rewrite ends with, by R51's table; the image as it is where that command rewrites
nothing. -/
def State.rewrittenImage (s : State) : Image :=
  match s.pending with
  | .composerAsk :: _ => s.imageAfter (execComposerAsk s)
  | .counterSet p body :: _ => s.imageAfter (execCounterSet p body s)
  | .counterFree p body :: _ => s.imageAfter (execCounterFree p body s)
  | .retainScope p body :: _ => s.imageAfter (execRetainScope p body s)
  | .formEnd p body :: _ => s.imageAfter (execFormEnd p body s)
  | .formDelete p body :: _ => s.imageAfter (execFormDelete p body s)
  | .formBegin p body :: _ => s.imageAfter (execFormBegin p body s)
  | _ => s.retained.image

/-- An image cut while it was rewritten to `goal`: the parts `written` says are as in `goal`, the others as before. Under COUNTERS an image
has no forms (R50, R51). -/
def Image.cutAt (i goal : Image) (written : ImagePart → Bool) : Image :=
  let scope := if written .scope then goal.scope else i.scope
  { counters := Vector.ofFn fun c => if written (.counter c) then goal.counters[c] else i.counters[c]
    scope := scope
    forms := Vector.ofFn fun n =>
      if scope = .counters then none else if written (.form n) then goal.forms[n] else i.forms[n] }

/-- The rewrite under way cut by the reset input: the image is partly the new one, with the check word of the old one (R51). Which parts
were written is a free choice (log 3). With no rewrite under way nothing is cut. -/
def State.cutRewrite (s : State) : State :=
  if s.rewrittenImage = s.retained.image then s
  else
    { s with
      retained := { s.retained with image := s.retained.image.cutAt s.rewrittenImage (Config.partWritten s.freeTick) }
      freeTick := s.freeTick + 1 }

/-! ### The input asserted and released (R186) -/

/-- The part held: motor stopped, strobes off, no dot enabled, CTS dropped on every port (R186). -/
def State.hold (s : State) : State :=
  { s with held := true, ports := mapVec (fun q : PortState => { q with cts := false }) s.ports }.onEngine Engine.motorStop

/-- DEVICE-RESET-ASSERT (R51, R186). -/
def execDeviceResetAssert (rewriteCut : Bool) (s : State) : Host.Outcome State Fault Refusal :=
  s.running fun s => if rewriteCut then s.cutRewrite.hold else s.hold

/-- The retained content judged and the volatile state renewed (R53, R186). -/
def State.powerUp (s : State) (backupLow lidOpen : Bool) : State :=
  if backupLow || !s.retained.sound then s.powerOn Image.fresh.sealed true lidOpen else s.powerOn s.retained false lidOpen

/-- POWER-UP (R53, R186). -/
def execPowerUp (backupLow lidOpen : Bool) (s : State) : Host.Outcome State Fault Refusal := .next (s.powerUp backupLow lidOpen)

end Sys2Proof.Machine
end

