-- ==== Sys2Proof/Machine/Dispatch.lean ====
section
/-! DEFINITION. What each command does: one direct call per constructor of Instr. -/

namespace Sys2Proof.Machine

/-- The effect of a command on everything but the queue. -/
def exec (i : Instr) (s : State) : Host.Outcome State Fault Refusal :=
  match i with
  | .headProfile port body => Sys2Proof.Machine.execHeadProfile port body s
  | .runSettings port body => Sys2Proof.Machine.execRunSettings port body s
  | .retainScope port body => Sys2Proof.Machine.execRetainScope port body s
  | .portSettings port body => Sys2Proof.Machine.execPortSettings port body s
  | .formBegin port body => Sys2Proof.Machine.execFormBegin port body s
  | .fieldDef port body => Sys2Proof.Machine.execFieldDef port body s
  | .stencilDef port body => Sys2Proof.Machine.execStencilDef port body s
  | .formEnd port body => Sys2Proof.Machine.execFormEnd port body s
  | .formDelete port body => Sys2Proof.Machine.execFormDelete port body s
  | .formQuery port body => Sys2Proof.Machine.execFormQuery port body s
  | .counterSet port body => Sys2Proof.Machine.execCounterSet port body s
  | .counterFree port body => Sys2Proof.Machine.execCounterFree port body s
  | .counterQuery port body => Sys2Proof.Machine.execCounterQuery port body s
  | .jobOpen port body => Sys2Proof.Machine.execJobOpen port body s
  | .fieldData port body => Sys2Proof.Machine.execFieldData port body s
  | .jobClose port body => Sys2Proof.Machine.execJobClose port body s
  | .discard port body => Sys2Proof.Machine.execDiscard port body s
  | .jobHold port body => Sys2Proof.Machine.execJobHold port body s
  | .jobRelease port body => Sys2Proof.Machine.execJobRelease port body s
  | .jobCancel port body => Sys2Proof.Machine.execJobCancel port body s
  | .jobQuery port body => Sys2Proof.Machine.execJobQuery port body s
  | .contribute port body => Sys2Proof.Machine.execContribute port body s
  | .feed port body => Sys2Proof.Machine.execFeed port body s
  | .dryRunOn port body => Sys2Proof.Machine.execDryRunOn port body s
  | .dryRunOff port body => Sys2Proof.Machine.execDryRunOff port body s
  | .engineQuery port body => Sys2Proof.Machine.execEngineQuery port body s
  | .vectorQuery port body => Sys2Proof.Machine.execVectorQuery port body s
  | .reportRead port body => Sys2Proof.Machine.execReportRead port body s
  | .positionWatch port body => Sys2Proof.Machine.execPositionWatch port body s
  | .portReset port body => Sys2Proof.Machine.execPortReset port body s
  | .unknownKind port kind body => Sys2Proof.Machine.execUnknownKind port kind body s
  | .receiveByte port char framingError => Sys2Proof.Machine.execReceiveByte port char framingError s
  | .frameTimeout port => Sys2Proof.Machine.execFrameTimeout port s
  | .lineBreak port => Sys2Proof.Machine.execLineBreak port s
  | .deviceResetAssert rewriteCut => Sys2Proof.Machine.execDeviceResetAssert rewriteCut s
  | .powerUp backupLow lidOpen => Sys2Proof.Machine.execPowerUp backupLow lidOpen s
  | .sensorReading temperature voltage => Sys2Proof.Machine.execSensorReading temperature voltage s
  | .lidSwitchOpen => Sys2Proof.Machine.execLidSwitchOpen s
  | .lidSwitchClosed => Sys2Proof.Machine.execLidSwitchClosed s
  | .composerAsk => Sys2Proof.Machine.execComposerAsk s
  | .bandTake => Sys2Proof.Machine.execBandTake s
  | .bandFillComplete => Sys2Proof.Machine.execBandFillComplete s
  | .mergeTimerExpiry job => Sys2Proof.Machine.execMergeTimerExpiry job s
  | .poolEntryDiscard key port field => Sys2Proof.Machine.execPoolEntryDiscard key port field s
  | .forwardStep gap => Sys2Proof.Machine.execForwardStep gap s
  | .strobePhaseEnd => Sys2Proof.Machine.execStrobePhaseEnd s
  | .phaseGapEnd => Sys2Proof.Machine.execPhaseGapEnd s
  | .dotClassTimeEnd dot => Sys2Proof.Machine.execDotClassTimeEnd dot s
  | .takenSensorSample absent => Sys2Proof.Machine.execTakenSensorSample absent s
  | .labelTaken => Sys2Proof.Machine.execLabelTaken s
  | .backFeedStep => Sys2Proof.Machine.execBackFeedStep s
  | .dryLineConsumed => Sys2Proof.Machine.execDryLineConsumed s
  | .mergeTimerSecond job => Sys2Proof.Machine.execMergeTimerSecond job s

end Sys2Proof.Machine
end

