-- ==== Sys2Proof/Safety.lean ====
section
/-! DEFINITION. What counts as a sound state of the part: the capacities the manual gives, the limits of the counters, the receive buffer
and its CTS, and the engine's safety: heat only while BURNING and only without a fault. -/

namespace Sys2Proof.Machine

/-! ### When a record is taken -/

/-- The part runs, and the port can take the record: it is the port's oldest complete frame (R169, R186); or no byte waits at the port, and
the record's command stands for the frame's arrival and its taking together (log 6: DESIGN CHOICE). -/
def State.canTake (s : State) (p : Port) (kind : Byte) (body : List Byte) : Prop :=
  s.held = false ∧ (s.port p).offers kind body = true

/-- The state once the taken frame's bytes have left the port's buffer (R167, R169). -/
def State.taken (s : State) (p : Port) : State := s.onPort p PortState.takeFrame

/-! ### Capacities -/

/-- No report list holds more than 12 reports (R179). -/
def State.reportsBounded (s : State) : Prop := ∀ p, (s.port p).reports.length ≤ 12

/-- The queue holds at most 16 jobs (R54). -/
def State.queueBounded (s : State) : Prop := s.queue.length ≤ 16

/-- The contribution pool holds at most 24 entries (R83). -/
def State.poolBounded (s : State) : Prop := s.pool.length ≤ 24

/-- The edge list holds at most 32 records (R139). -/
def State.edgesBounded (s : State) : Prop := s.engine.edges.length ≤ 32

/-- At most 8 labels are in flight, the entries of the redo list among them (R99, R116). -/
def State.labelsBounded (s : State) : Prop := s.labelsInFlight ≤ 8

/-- The form pools hold no more than their capacities (R5). -/
def State.formPoolsBounded (s : State) : Prop :=
  s.poolUsed Form.fieldsUsed ≤ fieldPool ∧ s.poolUsed Form.textUsed ≤ textPool ∧ s.poolUsed Form.rowsUsed ≤ rowPool

/-- The value store holds no more than its capacity (R60). -/
def State.valuesBounded (s : State) : Prop := s.valuesUsed ≤ valueStore

/-! ### Names -/

/-- A form's field numbers are distinct (R6, R15). -/
def Form.numbersDistinct (f : Form) : Prop := (f.fields.map Field.number).Nodup

/-- A job keeps one value for a field from its origin, and one from its contributors (R61, R81). -/
def Job.fieldsDistinct (j : Job) : Prop := (j.data.map (·.1)).Nodup ∧ (j.contribs.map Contribution.field).Nodup

/-- What the records are found by is theirs alone: job numbers, a job's fields, a pool entry's key, port and field, a form's fields; and
no pool entry waits with the key of a queued job (R6, R57, R61, R81, R83, R84, R86). -/
def State.namesDistinct (s : State) : Prop :=
  (s.queue.map Job.number).Nodup ∧ (∀ j ∈ s.queue, j.fieldsDistinct) ∧
  (s.pool.map fun e => (e.key, e.port, e.field)).Nodup ∧ (∀ j ∈ s.queue, ∀ e ∈ s.pool, j.key ≠ some e.key) ∧
  ∀ i : Fin 32, (∀ f, (s.slots[i]).form? = some f → f.numbersDistinct) ∧ ∀ f, s.retained.image.forms[i] = some f → f.numbersDistinct

/-! ### Counters -/

/-- A DEFINED counter's value lies between its limits (R39). -/
def Counter.inLimits (k : Counter) : Prop := k.low ≤ k.value ∧ k.value ≤ k.high ∧ k.high ≤ 999999999

/-- Every DEFINED counter, and every counter the retained image holds, is within its limits (R39, R50). -/
def State.countersInLimits (s : State) : Prop :=
  ∀ c : CounterNo, (∀ k, s.counters[c] = some k → k.inLimits) ∧ (∀ k, s.retained.image.counters[c] = some k → k.inLimits)

/-- Under COUNTERS the retained image holds no form, and every form it holds is its slot's; while the part runs it has every counter and,
under COUNTERS-AND-FORMS, every ACTIVE form as they are (R50 to R52). A rewrite cut by the reset input may leave it partly new (R51). -/
def State.imageFollows (s : State) : Prop :=
  (s.retained.image.scope = .counters → ∀ i : Fin 32, s.retained.image.forms[i] = none) ∧
  (∀ (i : Fin 32) f, s.retained.image.forms[i] = some f → (s.slots[i]).form? = some f) ∧
  (s.held = false → s.retained.image.counters = s.counters ∧
    (s.retained.image.scope = .countersAndForms → ∀ i : Fin 32, s.retained.image.forms[i] = (s.slots[i]).active?))

/-! ### The receive buffer -/

/-- The places of the frame in assembly that have passed (R165). -/
def Assembler.passed (a : Assembler) : Nat :=
  match a.state with
  | .hunt => 0
  | .kind => 1
  | .lengthHigh => 2
  | .lengthLow => 3
  | .body | .check => 4 + a.body.length

/-- Whether the assembler is before the body of a frame (R165). -/
def Assembler.beforeBody (a : Assembler) : Bool :=
  match a.state with
  | .kind | .lengthHigh | .lengthLow => true
  | .hunt | .body | .check => false

/-- The buffer holds a byte for every place of the frame in assembly that has passed, but for bytes lost to an overrun; before the body
nothing of a body is kept (R165, R167). -/
def Assembler.consistent (a : Assembler) : Prop :=
  a.held ≤ a.passed ∧ (a.overrun = false → a.held = a.passed) ∧ (a.beforeBody = true → a.body = [])

/-- The receive buffer holds at most 2,048 bytes (R163, R167). -/
def PortState.bufferSound (q : PortState) : Prop := q.assembler.consistent ∧ q.heldBytes ≤ bufferSize

/-- Every port's buffer is sound. -/
def State.buffersSound (s : State) : Prop := ∀ p, (s.port p).bufferSound

/-- CTS is dropped below 1,040 free bytes and raised at 1,536 or more (R167). -/
def PortState.ctsSound (q : PortState) : Prop :=
  (bufferSize < q.heldBytes + 1040 → q.cts = false) ∧ (q.heldBytes + 1536 ≤ bufferSize → q.cts = true)

/-- Every port's CTS is right for its buffer, or the part is held with CTS dropped on every port (R167, R186). -/
def State.ctsRight (s : State) : Prop := if s.held then ∀ p, (s.port p).cts = false else ∀ p, (s.port p).ctsSound

/-! ### The engine -/

/-- Whether any dot is enabled: the only time heat reaches the media (R129, R130). -/
def Engine.heats (e : Engine) : Bool := e.line.any (fun l => !l.enabled.isEmpty)

/-- What the engine is feeding for fits its state, and a line in progress means the motor moves forward; only a line of the label at the
head is burned (R121, R130, R135). -/
def Engine.taskFits (e : Engine) : Prop :=
  (match e.mode with
    | .registering => match e.task with
      | .seek | .feedFirst | .feedSecond _ | .feedTo _ => True
      | _ => False
    | .burning => match e.task with
      | .approach _ _ | .lines | .carry _ => True
      | _ => False
    | .paused => e.task = .lines ∧ e.line = none
    | .unset | .stopped | .presenting | .retracting | .dry | .fault => e.task = .idle ∧ e.line = none) ∧
  (∀ l, e.line = some l → (l.burn = none → l.phases = [] ∧ l.enabled = []) ∧ (l.burn ≠ none → e.task = .lines))

/-- The fault set is empty while the engine is out of FAULT, UNSET and DRY, and not empty in FAULT (R130, R136, R151, R152). -/
def Engine.faultsFit (e : Engine) : Prop :=
  match e.mode with
  | .unset | .dry => True
  | .fault => e.faults ≠ .none
  | _ => e.faults = .none

/-- The engine's invariant: its task and its fault set fit its state. -/
def Engine.sound (e : Engine) : Prop := e.taskFits ∧ e.faultsFit

end Sys2Proof.Machine
end

