-- ==== Sys2Proof/Certificates/Slice0/Obligations.lean ====
section
/-! DEFINITION. The statements for the provers. `s.canTake p kind body` says when a record command has its record taken: its frame is the
port's oldest complete one, or no byte waits at the port and the command stands for the frame's arrival and its taking together. That
second reading is the model's choice (log 6), and every statement about a record rests on it. `s.taken p` is the state once the taken
frame's bytes have left the port's buffer, so an equation with it says that nothing else changes. -/

open Sys2Proof Sys2Proof.Machine

/-! ### The queue of commands and the lines -/

/-- The model's interface: a step takes the command at the front of the queue, whole, on the rest of the queue. -/
def Obligations.StepTakesTheFrontCommand : Prop :=
  ∀ (c : Instr) (s : State) (rest : List Instr), step { s with pending := c :: rest } = exec c { s with pending := rest }

/-- R170: a record whose body length is not what its kind's layout requires is refused BAD-LENGTH, and one of a kind byte that is no record
kind UNKNOWN-KIND; nothing else changes. Here and below a record command is taken when `s.canTake` says so: its frame is the port's oldest
complete one, or none waits and it stands for the frame's arrival and taking together (log 6). -/
def Obligations.UnreadableRecordIsRefused : Prop :=
  (∀ (k : Kind) (p : Port) (body : List Byte) (s : State), s.canTake p k.byte body → k.lengthFits body = false →
      exec (commandOfKind k p body) s = .next ((s.taken p).answer p k .badLength)) ∧
  (∀ (s : State) (p : Port) (kind : Byte) (body : List Byte), (∀ k : Kind, k.byte ≠ kind) → s.canTake p kind body →
      ∃ t : State, exec (.unknownKind p kind body) s = .next t ∧
        (t.port p).sent = (s.port p).sent ++ [.reply (kind ||| 0x80#8) [0x11#8]] ∧
        t = (s.taken p).onPort p fun q => { q with sent := (t.port p).sent })

/-- R169 to R171: the command a record's frame is handed on as is the record's own, for every record that can occur. -/
def Obligations.FrameNamesItsCommand : Prop :=
  ∀ (i : Instr) (p : Port) (f : Frame), i.wellFormed = true → i.frame? = some (p, f) → commandOfFrame p f = i

/-- R164, R165: a record frame sent on the line, byte by byte, into a port in HUNT with room for it waits there complete, its kind and body
as sent, whatever a lost byte would be taken as (log 12), since none is lost; only CTS may have changed beside. -/
def Obligations.FrameSentIsFrameReceived : Prop :=
  ∀ (q : PortState) (kind lost : Byte) (body : List Byte), q.assembler = Assembler.hunting → body.length ≤ 1024 →
    q.heldBytes + (body.length + 5) ≤ 2048 →
    { (frameBytes kind body).foldl (fun q b => q.receive lost b) q with cts := q.cts } =
      { q with frames := q.frames ++ [{ kind := kind, body := body }] }

/-- R163, R165 to R167: a character received with a framing error changes nothing; in HUNT a start byte begins a frame and another byte
is dropped. A frame in assembly is discarded, with LINE-ERROR, when its 50 ms run out, at a length above 1,024, and at a check byte that
leaves a wrong sum or ends a frame with an overrun mark; else the check byte completes it. A byte that finds the buffer full is lost: in
HUNT nothing changes; else the frame gets the overrun mark, counts the place of the byte and keeps none of it; a lost check byte discards the frame,
and a lost length byte may (log 12). That CTS is judged without the byte dropped in HUNT, also where 1,040 bytes are free, is the model's
choice (log 31). -/
def Obligations.LineEventsInHuntAndAtTimeout : Prop :=
  (∀ (s : State) (p : Port) (b : Byte), s.held = false → exec (.receiveByte p b true) s = .next s) ∧
  (∀ (s : State) (p : Port), s.held = false → (s.port p).assembler = Assembler.hunting → (s.port p).heldBytes < 2048 →
    exec (.receiveByte p 0x01#8 false) s = .next (s.onPort p fun q =>
      PortState.refreshCts { q with assembler := { Assembler.hunting with state := .kind, held := 1 } })) ∧
  (∀ (s : State) (p : Port) (b : Byte), s.held = false → (s.port p).assembler = Assembler.hunting → (s.port p).heldBytes < 2048 →
    b ≠ 0x01#8 → exec (.receiveByte p b false) s = .next (s.onPort p PortState.refreshCts)) ∧
  (∀ (s : State) (p : Port), s.held = false → (s.port p).assembler.state ≠ .hunt →
    ∃ t : State, exec (.frameTimeout p) s = .next t ∧ (t.port p).assembler = Assembler.hunting ∧ (t.port p).frames = (s.port p).frames ∧
      Event.lineError.isIn (t.port p).pending = true ∧ (∀ q, q ≠ p → t.port q = s.port q) ∧ t = { s with ports := t.ports }) ∧
  (∀ (s : State) (p : Port) (b : Byte), s.held = false →
    let q := s.port p
    let a := q.assembler
    let discards := fun t : State => Event.lineError.isIn (t.port p).pending = true ∧ (∀ x, x ≠ p → t.port x = s.port x) ∧
      t.port p = { q with
        assembler := Assembler.hunting, cts := (t.port p).cts, pending := (t.port p).pending, armHeld := (t.port p).armHeld,
        armExhausted := (t.port p).armExhausted, sent := (t.port p).sent }
    let marks := fun (t : State) (state : AssemblerState) (passed : Nat) => (∀ x, x ≠ p → t.port x = s.port x) ∧
      (t.port p).assembler.state = state ∧ (t.port p).assembler.overrun = true ∧ (t.port p).assembler.held = a.held ∧
      (t.port p).assembler.body.length = passed ∧ t.port p = { q with assembler := (t.port p).assembler }
    (a.state = .lengthLow → q.heldBytes < 2048 → 1024 < a.lengthHigh.toNat * 256 + b.toNat →
      ∃ t : State, exec (.receiveByte p b false) s = .next t ∧ discards t ∧ t = { s with ports := t.ports }) ∧
    (a.state = .check → q.heldBytes < 2048 →
      let whole := byteSum (a.kind :: a.lengthHigh :: a.lengthLow :: (a.body ++ [b])) % 256 = 0 ∧ a.overrun = false
      ∃ t : State, exec (.receiveByte p b false) s = .next t ∧ t = { s with ports := t.ports } ∧ (¬ whole → discards t) ∧
        (whole → (∀ x, x ≠ p → t.port x = s.port x) ∧ t.port p = { q with
          assembler := Assembler.hunting, frames := q.frames ++ [{ kind := a.kind, body := a.body }], cts := (t.port p).cts })) ∧
    (a.state = .hunt → 2048 ≤ q.heldBytes → exec (.receiveByte p b false) s = .next s) ∧
    (a.state ≠ .hunt → 2048 ≤ q.heldBytes →
      ∃ t : State, exec (.receiveByte p b false) s = .next t ∧ t = { s with ports := t.ports, freeTick := s.freeTick + 1 } ∧
        (a.state = .kind → marks t .lengthHigh a.body.length) ∧ (a.state = .lengthHigh → marks t .lengthLow a.body.length) ∧
        (a.state = .lengthLow → discards t ∨ marks t .body a.body.length ∨ marks t .check a.body.length) ∧
        (a.state = .body →
          marks t (if a.lengthHigh.toNat * 256 + a.lengthLow.toNat ≤ a.body.length + 1 then .check else .body) (a.body.length + 1)) ∧
        (a.state = .check → discards t)))

/-! ### Set-up -/

/-- R183, R184, R136: the first head profile in range is loaded, the history sized, M set, hot mode and OVERHEAT judged; every later one
is refused ALREADY-SET whatever its values. Run settings in range are replaced at once while the engine is UNSET or STOPPED without
faults and no buffer is FULL or FILLING; the engine is then STOPPED. -/
def Obligations.SetUpRecordsComeIntoForce : Prop :=
  ((∀ (s : State) (p : Port) (h : HeadProfile), s.canTake p Kind.headProfile.byte h.body → s.profile = none → h.inRange = true →
      s.engine.mode = .unset →
      exec (.headProfile p h.body) s = .next (State.accept { s.taken p with
        profile := some h
        engine := { s.engine with
          history1 := List.replicate h.dots false, history2 := List.replicate h.dots false, mark := s.engine.hp + h.sensor,
          hot := judgeHot h.threshold s.engine.temperature s.engine.hot,
          faults := { s.engine.faults with
            overheat := s.engine.faults.overheat || decide ((h.threshold : Int) + 15 ≤ s.engine.temperature) } } } p .headProfile [])) ∧
    (∀ (s : State) (p : Port) (body : List Byte), s.canTake p Kind.headProfile.byte body → body.length = 7 → s.profile.isSome = true →
      exec (.headProfile p body) s = .next ((s.taken p).answer p .headProfile .alreadySet))) ∧
  (∀ (s : State) (p : Port) (h : HeadProfile) (r : RunSettings), s.canTake p Kind.runSettings.byte r.body → s.profile = some h →
      h.dots ≤ 896 → r.inRange h.dots = true → r.gapLimit ≤ 255 → (s.engine.mode = .unset ∨ s.engine.mode = .stopped) →
      s.engine.faults = .none → (∀ i, (s.buffer i).state ≠ .full ∧ (s.buffer i).state ≠ .filling) →
      exec (.runSettings p r.body) s =
        .next (State.accept { s.taken p with settings := some r, engine := { s.engine with mode := .stopped } } p .runSettings []))

/-- R52: a RETAIN-SCOPE whose scope is neither is refused BAD-VALUE; any other, from any port at any time, sets the scope and rewrites the
image: every ACTIVE form under COUNTERS-AND-FORMS, none under COUNTERS; the Form Store is untouched. -/
def Obligations.RetainScopeRewritesTheImage : Prop :=
  (∀ (s : State) (p : Port) (b : Byte), s.canTake p Kind.retainScope.byte [b] → 1 < b.toNat →
    exec (.retainScope p [b]) s = .next ((s.taken p).answer p .retainScope .badValue)) ∧
  (∀ (s : State) (p : Port) (forms : Bool), s.canTake p Kind.retainScope.byte (flag1 forms) →
    ∃ im : Image, im.counters = s.retained.image.counters ∧ im.scope = (if forms then .countersAndForms else .counters) ∧
      (∀ i : Fin 32, im.forms[i] = if forms then (s.slots[i]).active? else none) ∧
      exec (.retainScope p (flag1 forms)) s = .next (State.accept { s.taken p with retained := im.sealed } p .retainScope []))

/-- R172, R182: PORT-SETTINGS replaces every setting of the sending port, and nothing of another port. POSITION-WATCH with job number 0
disarms the sender's watch; for a copy and a line of a queued job it arms it in place of any before. -/
def Obligations.PortSettingsAndWatchAreReplaced : Prop :=
  (∀ (s : State) (p : Port) (t : PortSettings), t.filter1.pattern.length = 5 → t.filter2.pattern.length = 5 →
      s.canTake p Kind.portSettings.byte t.body →
      exec (.portSettings p t.body) s =
        .next (((s.taken p).onPort p fun q => { q with settings := t }).accept p .portSettings [])) ∧
  (∀ (s : State) (p : Port) (w : PositionWatch), s.canTake p Kind.positionWatch.byte w.body → w.job ≤ 4095 → w.copy ≤ 65535 →
      w.line ≤ 65535 →
      (w.job = 0 → exec (.positionWatch p w.body) s =
        .next (((s.taken p).onPort p fun q => { q with watch := none }).accept p .positionWatch [])) ∧
      (∀ j f, s.job? w.job = some j → 1 ≤ w.job → s.activeForm j.form = some f → 1 ≤ w.copy → w.copy ≤ j.total → j.total ≤ 999 →
        w.line < f.length →
        exec (.positionWatch p w.body) s =
          .next (((s.taken p).onPort p fun q => { q with watch := some w }).accept p .positionWatch [])))

/-- R185, R43: ENGINE-QUERY changes nothing and its reply holds the ten bytes of the table. COUNTER-QUERY changes nothing; for one counter
the reply holds its state, and for a DEFINED one its record; for 8, all eight in number order. That COUNTER-QUERY's reply is one byte for
an UNDEFINED counter, 18 bytes for a DEFINED one, and eight such entries without a count byte for 8 is the model's reading of R173 (log
21). -/
def Obligations.QueriesReportEngineAndCounters : Prop :=
  (∀ (s : State) (p : Port), s.canTake p Kind.engineQuery.byte [] →
      ∃ d : List Byte, exec (.engineQuery p []) s = .next ((s.taken p).accept p .engineQuery d) ∧ d.length = 10 ∧
        natAt d 0 = s.engine.mode.number ∧
        ((d.getD 1 0).getLsbD 0 = s.engine.faults.headOpen ∧ (d.getD 1 0).getLsbD 1 = s.engine.faults.overheat ∧
          (d.getD 1 0).getLsbD 2 = s.engine.faults.supplyLow ∧ (d.getD 1 0).getLsbD 3 = s.engine.faults.mediaOut ∧
          (d.getD 1 0).getLsbD 4 = s.engine.faults.noGap) ∧
        natAt d 2 = s.engine.hot.toNat ∧ natAt d 3 = s.engine.registered.toNat ∧
        (-20 ≤ s.engine.temperature → s.engine.temperature ≤ 120 → int1At d 4 = s.engine.temperature) ∧
        (s.engine.voltage ≤ 400 → nat2At d 5 = s.engine.voltage) ∧ natAt d 7 = s.retainedLost.toNat ∧
        natAt d 8 = s.profile.isSome.toNat ∧ natAt d 9 = s.settings.isSome.toNat) ∧
  ((∀ (s : State) (p : Port) (c : CounterNo), s.canTake p Kind.counterQuery.byte (byte1 c.val) →
      ∃ d : List Byte, exec (.counterQuery p (byte1 c.val)) s = .next ((s.taken p).accept p .counterQuery d) ∧
        (s.counters[c] = none → d = [0#8]) ∧
        (∀ k, s.counters[c] = some k → d.length = 18 ∧ natAt d 0 = 1 ∧ natAt d 1 = k.owner.val ∧
          (k.value ≤ 999999999 → nat4At d 2 = k.value) ∧ (-9999 ≤ k.step → k.step ≤ 9999 → int2At d 6 = k.step) ∧
          (k.low ≤ 999999999 → nat4At d 8 = k.low) ∧ (k.high ≤ 999999999 → nat4At d 12 = k.high) ∧
          natAt d 16 = (if k.policy = .stop then 0 else 1) ∧ natAt d 17 = k.exhausted.toNat)) ∧
    (∀ (s : State) (p : Port), s.canTake p Kind.counterQuery.byte (byte1 8) →
      exec (.counterQuery p (byte1 8)) s =
        .next ((s.taken p).accept p .counterQuery (s.counters.toList.flatMap counterReport))))

/-! ### Forms -/

/-- R14: FORM-BEGIN on an EMPTY slot, or on an ACTIVE one of the sender's that no job names, takes the slot into DEFINING with empty
lists; an emptied form leaves the retained copy under COUNTERS-AND-FORMS. -/
def Obligations.FormBeginTakesTheSlot : Prop :=
  ∀ (s : State) (p : Port) (r : FormBegin), s.canTake p Kind.formBegin.byte r.body → r.inRange = true → s.definingSlot p = none →
    (s.slot r.number = .empty →
      exec (.formBegin p r.body) s = .next (((s.taken p).setSlot r.number (.defining {
        owner := p, shared := r.shared, length := r.length, width := r.width, printPlanes := r.printPlanes,
        mergeTimeout := r.mergeTimeout, policy := r.policy, fields := [], stencils := [] })).accept p .formBegin [])) ∧
    (∀ f, s.slot r.number = .active f → f.owner = p → s.useCount r.number = 0 →
      exec (.formBegin p r.body) s = .next ((((s.taken p).setSlot r.number (.defining {
        owner := p, shared := r.shared, length := r.length, width := r.width, printPlanes := r.printPlanes,
        mergeTimeout := r.mergeTimeout, policy := r.policy, fields := [], stencils := [] })).retainForm r.number none).accept
          p .formBegin []))

/-- R15, R16, R5, R174: an accepted FIELD-DEF or STENCIL-DEF appends the field or the stencil it carries to the defining form, column 0 of
a stencil row the most significant bit of its first byte, and takes its storage from the pools. That a fixed text is taken with a source
other than FIXED, as `Field.inRange` lets it, is the model's reading (log 22), and that a stencil, whose list has no order that matters,
stands last in it the model's choice (log 30). -/
def Obligations.DefinitionsAreAppended : Prop :=
  (∀ (s : State) (p : Port) (n : Nat) (f : Form) (x : Field), s.canTake p Kind.fieldDef.byte x.body → x.inRange = true →
      s.definingSlot p = some n → s.slot n = .defining f → (∀ y ∈ f.fields, y.number ≠ x.number) → 1 ≤ s.fieldsFree →
      x.fixedText.length + x.fallback.length ≤ s.textFree →
      ∃ t : State, exec (.fieldDef p x.body) s = .next t ∧
        t = ((s.taken p).setSlot n (.defining { f with fields := f.fields ++ [x] })).accept p .fieldDef [] ∧
        t.fieldsFree + 1 = s.fieldsFree ∧ t.textFree + (x.fixedText.length + x.fallback.length) = s.textFree) ∧
  (∀ (s : State) (p : Port) (n : Nat) (f : Form) (x : Stencil), s.canTake p Kind.stencilDef.byte x.body → 1 ≤ x.number → x.number ≤ 8 →
      1 ≤ x.rows.length → x.rows.length ≤ 64 → s.definingSlot p = some n → s.slot n = .defining f →
      (∀ y ∈ f.stencils, y.number ≠ x.number) → x.rows.length ≤ s.rowsFree →
      ∃ t : State, exec (.stencilDef p x.body) s = .next t ∧
        t = ((s.taken p).setSlot n (.defining { f with stencils := f.stencils ++ [x] })).accept p .stencilDef [] ∧
        t.rowsFree + x.rows.length = s.rowsFree)

/-- R17, R18, R5: FORM-END makes a complete form ACTIVE and adds it to the retained copy under COUNTERS-AND-FORMS; one without fields, or
with a STAMP that names a stencil the form does not hold, is refused FORM-INCOMPLETE and stays as it is. FORM-DELETE of an ACTIVE form of
the sender's that no job names empties the slot, gives its storage back, and drops it from the retained copy; of the sender's DEFINING
slot it empties the slot, gives its storage back, and leaves the sender without a defining slot. -/
def Obligations.FormEndAndDeleteMoveTheSlot : Prop :=
  (∀ (s : State) (p : Port) (n : Nat) (f : Form), s.canTake p Kind.formEnd.byte [] → s.definingSlot p = some n →
      s.slot n = .defining f →
      (f.fields ≠ [] → (∀ x ∈ f.fields, ∀ k w h, x.part = .stamp k w h → ∃ y ∈ f.stencils, y.number = k) →
        exec (.formEnd p []) s = .next ((((s.taken p).setSlot n (.active f)).retainForm n (some f)).accept p .formEnd [])) ∧
      (f.fields = [] → exec (.formEnd p []) s = .next ((s.taken p).answer p .formEnd .formIncomplete)) ∧
      (∀ x k w h, x ∈ f.fields → x.part = .stamp k w h → (∀ y ∈ f.stencils, y.number ≠ k) →
        exec (.formEnd p []) s = .next ((s.taken p).answer p .formEnd .formIncomplete))) ∧
  (∀ (s : State) (p : Port) (n : Nat) (f : Form), s.canTake p Kind.formDelete.byte (byte1 n) → 1 ≤ n → n ≤ 32 →
      s.slot n = .active f → f.owner = p → s.useCount n = 0 →
      ∃ t : State, exec (.formDelete p (byte1 n)) s = .next t ∧
        t = (((s.taken p).setSlot n .empty).retainForm n none).accept p .formDelete [] ∧ t.slot n = .empty ∧
        (s.poolUsed Form.fieldsUsed ≤ fieldPool → t.fieldsFree = s.fieldsFree + f.fields.length)) ∧
  (∀ (s : State) (p : Port) (n : Nat) (f : Form), s.canTake p Kind.formDelete.byte (byte1 n) → 1 ≤ n → n ≤ 32 →
      s.slot n = .defining f → f.owner = p →
      ∃ t : State, exec (.formDelete p (byte1 n)) s = .next t ∧
        t = ((s.taken p).setSlot n .empty).accept p .formDelete [] ∧ t.slot n = .empty ∧
        (s.poolUsed Form.fieldsUsed ≤ fieldPool → t.fieldsFree = s.fieldsFree + f.fields.length) ∧
        ((∀ m g, s.slot m = .defining g → g.owner = p → m = n) → t.definingSlot p = none))

/-- R19, R169: FORM-QUERY changes nothing; its reply opens with the three free counts. For 0 it then holds, for each slot in number order,
its state and, unless it is EMPTY, its owner and use count; for one slot its state, and for the form it holds the owner, the values of
FORM-BEGIN, the use count, how many fields and stencils, each field's number, kind, source, port or counter, required flag and fallback
text, and each stencil's number and row count. The byte each item stands at is the model's reading of R173 (log 21), and that stencils are
listed as they were defined its choice (log 30). For a form within R2 and R6 no reply body so laid out exceeds 2,200 bytes. -/
def Obligations.FormQueryChangesNothing : Prop :=
  ∀ (s : State) (p : Port) (n : Nat), s.canTake p Kind.formQuery.byte (byte1 n) → n ≤ 32 →
    let kind : KindPart → Byte := fun k => match k with
      | .text .. => 0#8
      | .barcode .. => 1#8
      | .box .. => 2#8
      | .stamp .. => 3#8
    let source : Source → List Byte := fun x => match x with
      | .fixed => [0#8, 0#8]
      | .job => [1#8, 0#8]
      | .contrib q => 2#8 :: byte1 q.val
      | .counter c _ => 3#8 :: byte1 c.val
      | .copyIndex => [4#8, 0#8]
    ∃ d : List Byte, exec (.formQuery p (byte1 n)) s = .next ((s.taken p).accept p .formQuery d) ∧
      nat2At d 0 = s.fieldsFree ∧ nat2At d 2 = s.textFree ∧ nat2At d 4 = s.rowsFree ∧
      (n = 0 → d.drop 6 = (List.range 32).flatMap fun k => match s.slot (k + 1) with
        | .empty => [0#8]
        | .defining f => 1#8 :: (byte1 f.owner.val ++ byte1 (s.useCount (k + 1)))
        | .active f => 2#8 :: (byte1 f.owner.val ++ byte1 (s.useCount (k + 1)))) ∧
      (1 ≤ n → s.slot n = .empty → d.drop 6 = [0#8]) ∧
      (∀ f, 1 ≤ n → s.slot n = .defining f ∨ s.slot n = .active f →
        d.drop 6 = (if s.slot n = .active f then 2#8 else 1#8) :: (byte1 f.owner.val ++
          FormBegin.body { number := n, shared := f.shared, length := f.length, width := f.width, printPlanes := f.printPlanes,
                           mergeTimeout := f.mergeTimeout, policy := f.policy } ++
          byte1 (s.useCount n) ++ byte1 f.fields.length ++ byte1 f.stencils.length ++
          f.fields.flatMap (fun x => byte1 x.number ++ [kind x.part] ++ source x.source ++ flag1 x.required ++
            (byte1 x.fallback.length ++ x.fallback)) ++
          f.stencils.flatMap (fun x => byte1 x.number ++ byte1 x.rows.length))) ∧
      ((∀ f, (s.slot n).form? = some f →
          f.fields.length ≤ 96 ∧ f.stencils.length ≤ 8 ∧ ∀ x ∈ f.fields, x.fallback.length ≤ 16) → d.length + 1 ≤ 2200)

/-! ### Counters -/

/-- R40, R41: an accepted COUNTER-SET defines the counter for the sender, removes the COUNTER holds that name it, rewrites the retained
counters, and clears an armed COUNTER-EXHAUSTED of the sender. R41 has the clear made before the reply is sent; R178 has a clear that
reveals an enabled event send its attention byte after the reply. That the byte so follows this reply in what the port has sent is the
model's reading of the two (log 11). -/
def Obligations.CounterSetDefinesTheCounter : Prop :=
  ∀ (s : State) (p : Port) (c : CounterNo) (start low high : Nat) (step : Int) (policy : CounterPolicy),
    s.canTake p Kind.counterSet.byte (counterSetBody c start step low high policy) → counterInRange start step low high = true →
    (∀ k, s.counters[c] = some k → k.owner = p) →
    let k : Counter :=
      { owner := p, value := start, step := step, low := low, high := high, policy := policy, exhausted := false }
    exec (.counterSet p (counterSetBody c start step low high policy)) s =
      .next ((State.accept { s.taken p with
        counters := s.counters.set c (some k)
        queue := s.queue.map fun j => if j.counterHold = some c then { j with counterHold := none } else j
        retained := ({ s.retained.image with counters := s.counters.set c (some k) } : Image).sealed } p .counterSet []).onPort p
          fun q => if q.armExhausted then q.clearEvent .counterExhausted else q)

/-- R42: COUNTER-FREE, in each of its cases. When its record is taken is the model's reading (log 6), as for every record. -/
def Obligations.CounterFreeByCase : Prop :=
  ∀ (s : State) (p : Port) (n : Nat), s.canTake p Kind.counterFree.byte (byte1 n) → n ≤ 255 →
    (7 < n → exec (.counterFree p (byte1 n)) s = .next ((s.taken p).answer p .counterFree .badValue)) ∧
    (∀ h : n < 8, s.counters[n] = none →
      exec (.counterFree p (byte1 n)) s = .next ((s.taken p).answer p .counterFree .ignored)) ∧
    (∀ (h : n < 8) (k : Counter), s.counters[n] = some k → k.owner ≠ p →
      exec (.counterFree p (byte1 n)) s = .next ((s.taken p).answer p .counterFree .notOwner)) ∧
    (∀ (h : n < 8) (k : Counter), s.counters[n] = some k → k.owner = p →
      exec (.counterFree p (byte1 n)) s = .next (State.accept { s.taken p with
        counters := s.counters.set n none
        retained := ({ s.retained.image with counters := s.counters.set n none } : Image).sealed } p .counterFree []))

/-! ### Draws and label starts -/

/-- R44: a draw on a DEFINED counter that is not exhausted adds the step; a sum outside the limits exhausts a STOP counter and takes a WRAP
counter to its other limit; a counter within its limits stays within them. A label start that draws the one counter gives the label the
counter's value, though the draw exhausts it; on an UNDEFINED or exhausted counter the draw fails: no label starts and no counter changes. -/
def Obligations.DrawMovesTheCounterByItsStep : Prop :=
  (∀ k : Counter, k.exhausted = false →
    ((k.low : Int) ≤ k.value + k.step → (k.value : Int) + k.step ≤ k.high →
      k.afterDraw = { k with value := k.afterDraw.value } ∧ (k.afterDraw.value : Int) = k.value + k.step) ∧
    ((k.value : Int) + k.step < k.low ∨ (k.high : Int) < k.value + k.step →
      (k.policy = .stop → k.afterDraw = { k with exhausted := true }) ∧
      (k.policy = .wrap → 0 < k.step → k.afterDraw = { k with value := k.low }) ∧
      (k.policy = .wrap → k.step < 0 → k.afterDraw = { k with value := k.high })) ∧
    (k.inLimits → k.afterDraw.inLimits)) ∧
  (∀ (s : State) (j : Job) (f : Form) (c : CounterNo), s.held = false → s.engine.mode ≠ .unset → s.engine.mode ≠ .dry → s.hand = none →
    s.redo = [] → s.labels.length < 8 → s.nextNewCopy = some j → s.activeForm j.form = some f → f.counters = [c] →
    (∀ k, s.counters[c] = some k → k.exhausted = false → ∃ (t : State) (l : LabelRecord), exec .composerAsk s = .next t ∧
      t.labels = s.labels ++ [l] ∧ l.values = [(c, k.value)] ∧ t.counters[c] = some k.afterDraw ∧
      ∀ d : CounterNo, d ≠ c → t.counters[d] = s.counters[d]) ∧
    ((∀ k, s.counters[c] = some k → k.exhausted = true) → ∃ t : State, exec .composerAsk s = .next t ∧ t.hand = none ∧
      t.labels = s.labels ∧ t.counters = s.counters ∧ t.retained = s.retained))

/-- R65, R66: with the redo list empty, the new copy offered is of the first job in queue order that is READY or ACTIVE and not blocked:
blocked means STRICT with an earlier job of its port OPEN, ASSEMBLING or HELD. -/
def Obligations.NextCopyIsOfTheFirstJobNotBlocked : Prop :=
  ∀ (s : State) (j : Job), s.nextNewCopy = some j ↔
    ∃ ahead rest, s.queue = ahead ++ j :: rest ∧
      let offered := fun (before : List Job) (k : Job) =>
        (s.jobState k = .ready ∨ s.jobState k = .active) ∧
        ((s.port k.origin).settings.sequence = .strict →
          ∀ m ∈ before, m.origin = k.origin → s.jobState m = .draining ∨ s.jobState m = .ready ∨ s.jobState m = .active)
      offered ahead j ∧ ∀ front k back, ahead = front ++ k :: back → ¬ offered front k

/-- R45, R49, R51, R67, R100: an asking with the redo list empty starts the next copy of the job the Print Queue offers when every
needed counter can give: outside DRY each is drawn once, the label holds their values in counter-number order, the retained counters
follow, COUNTER-EXHAUSTED goes to the owner of each counter its draw exhausts (R47), and the copy is counted and taken in hand; in DRY the
label takes previews, and no counter, retained copy or port moves. Either way the label's fallback count is the number of the job's marks
and its other counts are 0. -/
def Obligations.AskingStartsACopy : Prop :=
  (∀ (s : State) (j : Job) (f : Form), s.held = false → s.engine.mode ≠ .unset → s.engine.mode ≠ .dry → s.hand = none → s.redo = [] →
      s.labels.length < 8 → s.nextNewCopy = some j → s.activeForm j.form = some f →
      (∀ c ∈ f.counters, ∃ k, s.counters[c] = some k ∧ k.exhausted = false) →
      ∃ t : State, exec .composerAsk s = .next t ∧
        (∀ c : CounterNo, t.counters[c] = if c ∈ f.counters then (s.counters[c]).map Counter.afterDraw else s.counters[c]) ∧
        t.retained = (if f.counters = [] then s.retained else ({ s.retained.image with counters := t.counters } : Image).sealed) ∧
        t.queue = s.queue.map (fun k => if k.number = j.number then { k with composed := k.composed + 1 } else k) ∧
        (∃ h : Hand, t.hand = some h ∧ h.job = j.number ∧ h.copy = j.composed + 1 ∧ h.nextBand = 0 ∧
          ∀ q : Port, h.snapshot[q] = ⟨(s.port q).settings.planeMask, (s.port q).settings.stampPlanes⟩) ∧
        (∃ l : LabelRecord, t.labels = s.labels ++ [l] ∧ l.job = j.number ∧ l.copy = j.composed + 1 ∧ l.values = s.counterValues f ∧
          l.truncations = 0 ∧ l.symbolErrors = 0 ∧ l.masked = 0 ∧ l.pauses = 0 ∧
          ∀ k, s.job? j.number = some k → l.fallbacks = k.marks.length) ∧
        (∀ (q : Port) (e : Event), e.isIn (t.port q).pending = true ↔ e.isIn (s.port q).pending = true ∨
          (e = .counterExhausted ∧ ∃ c ∈ f.counters, ∃ k, s.counters[c] = some k ∧ k.afterDraw.exhausted = true ∧ k.owner = q)) ∧
        (∀ q : Port, (∀ c ∈ f.counters, ∀ k, s.counters[c] = some k → k.afterDraw.exhausted = true → k.owner ≠ q) → t.port q = s.port q) ∧
        t = { s with counters := t.counters, retained := t.retained, queue := t.queue, hand := t.hand, labels := t.labels, ports := t.ports }) ∧
  (∀ (s : State) (j : Job) (f : Form), s.held = false → s.engine.mode = .dry → s.hand = none → s.redo = [] →
      s.labels.length < 8 → s.nextNewCopy = some j → s.activeForm j.form = some f →
      (∀ c ∈ f.counters, ∃ k, s.counters[c] = some k ∧ k.exhausted = false) →
      ∃ t : State, exec .composerAsk s = .next t ∧
        (∃ h : Hand, t.hand = some h ∧ h.job = j.number ∧ h.copy = j.composed + 1 ∧ h.nextBand = 0 ∧
          ∀ q : Port, h.snapshot[q] = ⟨(s.port q).settings.planeMask, (s.port q).settings.stampPlanes⟩) ∧
        (∃ l : LabelRecord, t.labels = s.labels ++ [l] ∧ l.job = j.number ∧ l.copy = j.composed + 1 ∧ l.values = s.counterValues f ∧
          l.truncations = 0 ∧ l.symbolErrors = 0 ∧ l.masked = 0 ∧ l.pauses = 0 ∧
          ∀ k, s.job? j.number = some k → l.fallbacks = k.marks.length) ∧
        t = { s with
          queue := s.queue.map (fun k => if k.number = j.number then { k with composed := k.composed + 1 } else k)
          hand := t.hand, labels := t.labels })

/-- R46, R47: when a needed counter is UNDEFINED or exhausted no label starts and no counter moves: the job is held for the lowest such
counter, JOB-HELD is pending at its origin, and outside DRY COUNTER-EXHAUSTED at the owner of an exhausted one. -/
def Obligations.FailedDrawHoldsTheJob : Prop :=
  ∀ (s : State) (j : Job) (f : Form) (c : CounterNo), s.held = false → s.engine.mode ≠ .unset → s.hand = none → s.redo = [] →
    s.labels.length < 8 → s.nextNewCopy = some j → s.activeForm j.form = some f → c ∈ f.counters →
    (∀ k, s.counters[c] = some k → k.exhausted = true) →
    (∀ d ∈ f.counters, d < c → ∃ k, s.counters[d] = some k ∧ k.exhausted = false) →
    ∃ t : State, exec .composerAsk s = .next t ∧
      Event.jobHeld.isIn (t.port j.origin).pending = true ∧
      (∀ k, s.counters[c] = some k → s.engine.mode ≠ .dry → Event.counterExhausted.isIn (t.port k.owner).pending = true) ∧
      t = { s with
        queue := s.queue.map (fun k => if k.number = j.number then { k with counterHold := some c } else k)
        ports := t.ports }

/-- R65, R101, R48: an asking with a redo entry takes the first entry, with its copy index and values, whatever the state of its job, and
draws nothing. -/
def Obligations.AskingTakesTheRedoEntryFirst : Prop :=
  ∀ (s : State) (e : RedoEntry) (rest : List RedoEntry), s.held = false → s.engine.mode ≠ .unset → s.hand = none → s.redo = e :: rest →
    ∃ t : State, exec .composerAsk s = .next t ∧
      (∃ h : Hand, t.hand = some h ∧ h.job = e.job ∧ h.copy = e.copy ∧ h.nextBand = 0 ∧
        ∀ q : Port, h.snapshot[q] = ⟨(s.port q).settings.planeMask, (s.port q).settings.stampPlanes⟩) ∧
      (∃ l : LabelRecord, t.labels = s.labels ++ [l] ∧ l.job = e.job ∧ l.copy = e.copy ∧ l.values = e.values ∧ l.truncations = 0 ∧
        l.symbolErrors = 0 ∧ l.masked = 0 ∧ ∀ j, s.job? e.job = some j → l.fallbacks = j.marks.length) ∧
      t = { s with redo := rest, hand := t.hand, labels := t.labels }

/-! ### Jobs -/

/-- R57: with at most 16 jobs queued, the number given is the first from the job number counter on, 4,095 being followed by 1, that no
queued job holds; it is found within 17 tries and lies in 1 to 4,095. -/
def Obligations.JobNumberIsTheFirstFreeOne : Prop :=
  ∀ s : State, s.queue.length ≤ 16 → 1 ≤ s.nextJob → s.nextJob ≤ 4095 →
    ∃ k, k ≤ 16 ∧ s.nextFreeNumber = nextNumber^[k] s.nextJob ∧ (∀ j ∈ s.queue, j.number ≠ s.nextFreeNumber) ∧
      (∀ i, i < k → ∃ j ∈ s.queue, j.number = nextNumber^[i] s.nextJob) ∧ 1 ≤ s.nextFreeNumber ∧ s.nextFreeNumber ≤ 4095

/-- R59: a NORMAL job goes to the tail; a RUSH job goes behind the last job that is RUSH or has copies composed, or to the head when there
is none, and only NORMAL jobs with nothing composed stand behind it. -/
def Obligations.PlaceInTheQueueByClass : Prop :=
  ∀ (j : Job) (queue : List Job),
    (j.cls = .normal → placeJob j queue = queue ++ [j]) ∧
    (j.cls = .rush → ∃ ahead behind, queue = ahead ++ behind ∧ placeJob j queue = ahead ++ j :: behind ∧
      (∀ k ∈ behind, k.cls = .normal ∧ k.composed = 0) ∧
      (∀ k, ahead.getLast? = some k → k.cls = .rush ∨ 0 < k.composed))

/-- R58, R57, R59, R63: an accepted JOB-OPEN whose key, if any, no pool entry carries: the job is numbered, placed by its class, the
number counter moves past it, and the port's discard state ends. -/
def Obligations.JobOpenPlacesTheJob : Prop :=
  ∀ (s : State) (p : Port) (r : JobOpen) (h : HeadProfile) (f : Form), s.canTake p Kind.jobOpen.byte r.body → r.inRange = true →
    s.profile = some h → s.openJob? p = none → s.activeForm r.form = some f → (f.shared = true ∨ f.owner = p) → f.width ≤ h.dots →
    (r.key = none → ∀ x ∈ f.fields, x.source.isContrib = false) →
    (∀ k, r.key = some k → s.jobWithKey? k = none ∧ ∀ e ∈ s.pool, e.key ≠ k) → s.queue.length < 16 →
    let j : Job :=
      { number := s.nextFreeNumber, origin := p, key := r.key, form := r.form, total := r.total, composed := 0, completed := 0,
        cls := r.cls, closed := false, operator := false, mergeTimeout := false, counterHold := none, cancelled := false, data := [],
        contribs := [], timer := none, marks := [] }
    (∀ k ∈ s.queue, k.number ≠ s.nextFreeNumber) →
    exec (.jobOpen p r.body) s =
      .next (State.accept ({ s.taken p with
        queue := placeJob j s.queue, nextJob := nextNumber s.nextFreeNumber }.onPort p fun q => { q with discard := false })
        p .jobOpen (byte2 s.nextFreeNumber))

/-- R86: a JOB-OPEN with a key takes every pool entry carrying it: an entry whose port and field give a CONTRIB field of the form becomes
a contribution of the job; any other is discarded with CONTRIB-REFUSED to its port; no other port gets the event, and other entries
stay. -/
def Obligations.JobOpenSweepsThePool : Prop :=
  ∀ (s : State) (p : Port) (r : JobOpen) (h : HeadProfile) (f : Form) (key : Text), s.canTake p Kind.jobOpen.byte r.body →
    r.inRange = true → s.profile = some h → s.openJob? p = none → s.activeForm r.form = some f → (f.shared = true ∨ f.owner = p) →
    f.width ≤ h.dots → r.key = some key → s.jobWithKey? key = none → s.queue.length < 16 →
    (∀ k ∈ s.queue, k.number ≠ s.nextFreeNumber) →
    let serves := fun e : PoolEntry => e.key = key ∧ ∃ x ∈ f.fields, x.number = e.field ∧ x.source = .contrib e.port
    ∃ u : State, exec (.jobOpen p r.body) s = .next (u.accept p .jobOpen (byte2 s.nextFreeNumber)) ∧
      u = { s.taken p with queue := u.queue, nextJob := nextNumber s.nextFreeNumber, pool := u.pool, ports := u.ports } ∧
      u.pool = s.pool.filter (fun e => e.key != key) ∧
      (∃ j : Job, u.job? s.nextFreeNumber = some j ∧ ∀ c : Contribution,
        c ∈ j.contribs ↔ ∃ e ∈ s.pool, serves e ∧ c = { field := e.field, port := e.port, value := e.value }) ∧
      (∀ q : Port, Event.contribRefused.isIn (u.port q).pending = true ↔
        Event.contribRefused.isIn (s.port q).pending = true ∨ ∃ e ∈ s.pool, e.key = key ∧ e.port = q ∧ ¬ serves e)

/-- R61, R63, R74: FIELD-DATA in discard state is IGNORED; for a JOB field of the OPEN job's form, with room in the value store, the value
is stored for its field, in place of any before, and the values of other fields stay. DISCARD takes the port's OPEN job, if any, out of
the queue, disarms the watches on it, and puts the port in discard state. -/
def Obligations.FieldDataIsStoredUntilDiscard : Prop :=
  (∀ (s : State) (p : Port) (n : Nat) (v : Text), s.canTake p Kind.fieldData.byte (fieldDataBody n v) → n ≤ 255 → v.length ≤ 255 →
      ((s.port p).discard = true →
        exec (.fieldData p (fieldDataBody n v)) s = .next ((s.taken p).answer p .fieldData .ignored)) ∧
      (∀ (j : Job) (f : Form), (s.port p).discard = false → s.openJob? p = some j → 1 ≤ n → n ≤ 96 → v.length ≤ 64 →
        s.activeForm j.form = some f → (∃ x ∈ f.fields, x.number = n ∧ x.source = .job) →
        v.length ≤ s.valuesFree + (j.dataValue? n).elim 0 List.length →
        ∃ g : Job → Job,
          exec (.fieldData p (fieldDataBody n v)) s = .next (((s.taken p).onJob j.number g).accept p .fieldData []) ∧
          ∀ k : Job, (g k).dataValue? n = some v ∧ (∀ m, m ≠ n → (g k).dataValue? m = k.dataValue? m) ∧ g k = { k with data := (g k).data })) ∧
  (∀ (s : State) (p : Port), s.canTake p Kind.discard.byte [] →
      (s.openJob? p = none →
        exec (.discard p []) s = .next (((s.taken p).onPort p fun q => { q with discard := true }).accept p .discard [])) ∧
      (∀ j, s.openJob? p = some j →
        ∃ t : State, exec (.discard p []) s = .next t ∧ t.queue = s.queue.filter (fun k => k.number != j.number) ∧
          (∀ q, (t.port q).watch = (s.port q).watch.filter (fun w => w.job != j.number)) ∧ (t.port p).discard = true ∧
          (∀ q, q ≠ p → (t.port q).discard = (s.port q).discard ∧ (t.port q).sent = (s.port q).sent) ∧
          t = { s with queue := t.queue, ports := t.ports }))

/-- R62, R87, R82: an accepted JOB-CLOSE, no pool entry carrying the job's key: the job is closed; its merge timer starts at the form's
merge timeout when a required contribution is missing and the timeout is not 0. -/
def Obligations.JobCloseStartsTheTimer : Prop :=
  ∀ (s : State) (p : Port) (j : Job) (f : Form), s.canTake p Kind.jobClose.byte [] → (s.port p).discard = false →
    s.openJob? p = some j → s.activeForm j.form = some f → (∀ e ∈ s.pool, j.key ≠ some e.key) →
    (∀ k ∈ s.queue, k.number = j.number → k = j) → j.mergeTimeout = false → j.timer = none →
    let timer := if s.missing j ≠ [] ∧ 0 < f.mergeTimeout then some f.mergeTimeout else none
    exec (.jobClose p []) s =
      .next (((s.taken p).onJob j.number fun k => { k with closed := true, timer := timer }).accept p .jobClose []) ∧
    (j.cancelled = false → j.isHeld = false → j.composed = 0 →
      s.jobState { j with closed := true, timer := timer } = if s.missing j = [] then .ready else .assembling)

/-- R68: JOB-HOLD, in each of its cases; accepted, it adds OPERATOR and the job is HELD. R69: JOB-RELEASE has the same first three refusals,
is IGNORED on an OPEN job or one without OPERATOR, and accepted removes OPERATOR alone. -/
def Obligations.HoldAndReleaseMoveOperatorAlone : Prop :=
  (∀ (s : State) (p : Port) (n : Nat), s.canTake p Kind.jobHold.byte (byte2 n) → n ≤ 65535 →
    let answered := fun code => exec (.jobHold p (byte2 n)) s = .next ((s.taken p).answer p .jobHold code)
    (n = 0 ∨ 4095 < n → answered .badValue) ∧
    (1 ≤ n → n ≤ 4095 → (∀ k ∈ s.queue, k.number ≠ n) → answered .jobMissing) ∧
    (1 ≤ n → n ≤ 4095 → ∀ j, s.job? n = some j →
      (j.origin ≠ p → answered .notOwner) ∧
      (j.origin = p → s.jobState j = .opened → answered .badSequence) ∧
      (j.origin = p → s.jobState j = .draining → answered .ignored) ∧
      (j.origin = p → s.jobState j ≠ .opened → j.operator = true → answered .ignored) ∧
      (j.origin = p → s.jobState j ≠ .opened → s.jobState j ≠ .draining → j.operator = false →
        exec (.jobHold p (byte2 n)) s =
          .next (((s.taken p).onJob n fun k => { k with operator := true }).accept p .jobHold []) ∧
        s.jobState { j with operator := true } = .held))) ∧
  (∀ (s : State) (p : Port) (n : Nat), s.canTake p Kind.jobRelease.byte (byte2 n) → n ≤ 65535 →
    let answered := fun code => exec (.jobRelease p (byte2 n)) s = .next ((s.taken p).answer p .jobRelease code)
    (n = 0 ∨ 4095 < n → answered .badValue) ∧
    (1 ≤ n → n ≤ 4095 → (∀ k ∈ s.queue, k.number ≠ n) → answered .jobMissing) ∧
    (1 ≤ n → n ≤ 4095 → ∀ j, s.job? n = some j →
      (j.origin ≠ p → answered .notOwner) ∧
      (j.origin = p → s.jobState j = .opened ∨ j.operator = false → answered .ignored) ∧
      (j.origin = p → s.jobState j ≠ .opened → j.operator = true →
        exec (.jobRelease p (byte2 n)) s =
          .next (((s.taken p).onJob n fun k => { k with operator := false }).accept p .jobRelease []))))

/-- R71, R72, R112: a cancel with nothing composed takes the job out at once. In flight, the cancelled flag is set and the holds and timer
go; the composer drops a label of the job, the band it was filling is freed and the fill position moves back to it, its redo entries go,
every FULL band of it is VOID, watches on it are disarmed, and the job stays only while a label of it is in flight. R143: a PAUSED label of
the job ends its wait: the engine is BURNING and feeds the waiting line unburned. R113: where the engine seeks an edge or approaches a start for a band of the job, the VOID
bands at the take position are freed in one run without motion, and a label no band of which is left is no longer in flight. R159: in DRY
with no band in consumption the label of the job at the head ends VOIDED at once, with its report. That the engine looks for its next
work at the cancel itself is the model's reading (log 18). -/
def Obligations.CancelTakesTheJobOut : Prop :=
  ∀ (s : State) (p : Port) (n : Nat) (j : Job), s.canTake p Kind.jobCancel.byte (byte2 n) → 1 ≤ n → n ≤ 4095 → s.job? n = some j →
    j.origin = p → j.cancelled = false →
    (j.composed = 0 → exec (.jobCancel p (byte2 n)) s = .next (((s.taken p).leaveQueue n).accept p .jobCancel [])) ∧
    (0 < j.composed → ∃ u : State, exec (.jobCancel p (byte2 n)) s = .next (u.accept p .jobCancel []) ∧
      (∀ k, u.job? n = some k → k.cancelled = true ∧ k.isHeld = false ∧ k.timer = none ∧ u.jobInFlight n = true) ∧
      u.redo = s.redo.filter (fun e => e.job != n) ∧ (∀ h, u.hand = some h → h.job ≠ n) ∧
      ((∀ h, s.hand = some h → h.job ≠ n) → u.hand = s.hand ∧ u.ring.fill = s.ring.fill) ∧
      (∀ h, s.hand = some h → h.job = n → u.hand = none ∧
        ((∀ i, (s.buffer i).state ≠ .filling) → u.ring.fill = s.ring.fill) ∧
        ∀ i, (s.buffer i).state = .filling → (∀ k, k ≠ i → (s.buffer k).state ≠ .filling) → u.buffer i = Buffer.empty ∧ u.ring.fill = i) ∧
      (∀ h r, s.engine.mode = .paused → s.engine.heads.find? (fun x => !x.out) = some h → h.job = n → s.label? n h.copy ≠ none →
        s.settings = some r → ∃ m : Line, u.engine = { s.engine with mode := .burning, line := some m } ∧ m.burn = none ∧
          m.period = max (minimumPeriod r.speed s.engine.hot) (rampFloor s.engine.prevPeriod)) ∧
      (∀ i r, (u.buffer i).state = .full → (u.buffer i).record = some r → r.job = n → r.void = true) ∧
      (∀ q w, (u.port q).watch = some w → w.job ≠ n) ∧
      (∀ r, s.engine.mode = .registering ∨ s.engine.mode = .burning → s.engine.task = .seek ∨ (∃ a b, s.engine.task = .approach a b) →
        s.takeFull? = some r → r.job = n → s.atHead r.job r.copy = false →
        u.engine.hp = s.engine.hp ∧ (∀ x, u.takeFull? = some x → x.void = false ∨ u.atHead x.job x.copy = true) ∧
        (∃ k : Nat, 1 ≤ k ∧ k ≤ 8 ∧ u.ring.take = s.ring.take + Fin.ofNat 8 k ∧
          ∀ i, i < k → (s.buffer (s.ring.take + Fin.ofNat 8 i)).state = .full ∧ u.buffer (s.ring.take + Fin.ofNat 8 i) = Buffer.empty) ∧
        ∀ l ∈ u.labels, u.holdsLabel l.job l.copy = true) ∧
      (∀ h l, s.engine.mode = .dry → s.engine.heads = [h] → h.job = n → (∀ i, (s.buffer i).state ≠ .burning) →
        s.label? n h.copy = some l → u.label? n h.copy = none ∧
        ∃ c : Completion, (u.port p).reports.getLast? = some (.completion c) ∧ c.job = n ∧ c.copy = h.copy ∧ c.outcome = .voided ∧
          c.values = l.values ∧ c.pauses = l.pauses) ∧
      u = { s.taken p with
        queue := u.queue, redo := u.redo, ring := u.ring, hand := u.hand, labels := u.labels, engine := u.engine, ports := u.ports })

/-- R77, R178: JOB-QUERY changes nothing in the queue; its reply holds what the table lists, in that order, and it clears an armed JOB-HELD
of the sender. The byte each item stands at, and a count byte before each list, are the model's reading of R173 (log 21), and the order of
the missing fields and of the marks its choice (log 30). That the attention byte of an event the clear reveals follows the reply is R178's
sentence as the model reads it (log 11). -/
def Obligations.JobQueryReportsTheQueue : Prop :=
  ∀ (s : State) (p : Port) (n : Nat), s.canTake p Kind.jobQuery.byte (byte2 n) →
    let cleared := fun q : PortState => if q.armHeld then q.clearEvent .jobHeld else q
    (n = 0 → ∃ d : List Byte, exec (.jobQuery p (byte2 n)) s = .next (((s.taken p).accept p .jobQuery d).onPort p cleared) ∧
      (s.redo.length ≤ 255 → natAt d 2 = s.redo.length) ∧ nat2At d 0 = s.valuesFree ∧
      (s.queue.length ≤ 255 → natAt d 3 = s.queue.length) ∧ d.drop 4 = s.queue.flatMap s.jobReport) ∧
    (1 ≤ n → n ≤ 4095 → ∀ j, s.job? n = some j → ∃ d : List Byte,
      exec (.jobQuery p (byte2 n)) s = .next (((s.taken p).accept p .jobQuery d).onPort p cleared) ∧
      nat2At d 0 = n ∧ natAt d 2 = j.origin.val ∧
      ∀ k : Text, j.key.getD [] = k → k.length ≤ 12 → natAt d 3 = k.length ∧ sliceAt d 4 k.length = k ∧
        (j.form ≤ 32 → natAt d (4 + k.length) = j.form) ∧ natAt d (5 + k.length) = j.cls.number ∧
        natAt d (6 + k.length) = (s.jobState j).number ∧
        natAt d (7 + k.length) = j.operator.toNat + 2 * j.mergeTimeout.toNat + 4 * j.counterHold.isSome.toNat ∧
        natAt d (8 + k.length) = j.counterHold.isSome.toNat ∧ (∀ c, j.counterHold = some c → natAt d (9 + k.length) = c.val) ∧
        natAt d (10 + k.length) = j.cancelled.toNat ∧ (j.total ≤ 999 → nat2At d (11 + k.length) = j.total) ∧
        (j.composed ≤ 999 → nat2At d (13 + k.length) = j.composed) ∧ (j.completed ≤ 999 → nat2At d (15 + k.length) = j.completed) ∧
        d.drop (17 + k.length) =
          byte1 j.data.length ++ j.data.flatMap (fun x => byte1 x.1 ++ byte1 x.2.length) ++
          byte1 j.contribs.length ++ j.contribs.flatMap (fun c => byte1 c.field ++ byte1 c.port.val ++ byte1 c.value.length) ++
          byte1 (s.missing j).length ++ (s.missing j).flatMap byte1 ++ byte1 j.marks.length ++ j.marks.flatMap byte1 ++
          byte1 (j.timer.getD 0))

/-! ### Merging -/

/-- R80 to R82, R92: a CONTRIBUTE that meets its job is refused TOO-LATE once a copy is composed; before that, with room in the value
store, it becomes the job's value for the field, the field's fallback mark goes, and once no required field is missing the timer and
MERGE-TIMEOUT go; the reply names the job. -/
def Obligations.ContributionMeetsItsJob : Prop :=
  ∀ (s : State) (p : Port) (r : Contribute) (j : Job) (f : Form), s.canTake p Kind.contribute.byte r.body → r.inRange = true →
    s.jobWithKey? r.key = some j → s.job? j.number = some j → s.activeForm j.form = some f →
    (∃ x ∈ f.fields, x.number = r.field ∧ x.source = .contrib p) →
    (j.cancelled = true ∨ 0 < j.composed →
      exec (.contribute p r.body) s = .next ((s.taken p).answer p .contribute .tooLate)) ∧
    (j.cancelled = false → j.composed = 0 → r.value.length ≤ s.valuesFree + j.contribLength r.field →
      ∃ (u : State) (k : Job), exec (.contribute p r.body) s = .next (u.accept p .contribute (1#8 :: byte2 j.number)) ∧
        u = { s.taken p with queue := u.queue } ∧ u.job? j.number = some k ∧
        k.contribs.find? (fun c => c.field == r.field) = some { field := r.field, port := p, value := r.value } ∧
        (∀ m, m ≠ r.field →
          k.contribs.find? (fun c => c.field == m) = j.contribs.find? (fun c => c.field == m) ∧ (m ∈ k.marks ↔ m ∈ j.marks)) ∧
        r.field ∉ k.marks ∧
        (u.missing k = [] → k.timer = none ∧ k.mergeTimeout = false) ∧
        (u.missing k ≠ [] → k.timer = j.timer ∧ k.mergeTimeout = j.mergeTimeout) ∧
        k = { j with contribs := k.contribs, marks := k.marks, timer := k.timer, mergeTimeout := k.mergeTimeout })

/-- R80, R84: a CONTRIBUTE that finds no job for its key is kept in the pool with age 0, in place of the entry of its key, port and field
if there is one; a new entry needs one of the 24 places, and any needs room in the value store. The pool is a set (R83): that a new entry
stands last in its list, and a replaced one where it stood, is the model's choice (log 30). -/
def Obligations.ContributionGoesToThePool : Prop :=
  ∀ (s : State) (p : Port) (r : Contribute), s.canTake p Kind.contribute.byte r.body → r.inRange = true → s.jobWithKey? r.key = none →
    let mine := fun e : PoolEntry => e.key = r.key ∧ e.port = p ∧ e.field = r.field
    let entry : PoolEntry := { key := r.key, port := p, field := r.field, value := r.value, age := 0 }
    ((∀ e ∈ s.pool, ¬ mine e) → 24 ≤ s.pool.length →
      exec (.contribute p r.body) s = .next ((s.taken p).answer p .contribute .poolFull)) ∧
    ((∀ e ∈ s.pool, ¬ mine e) → s.pool.length < 24 → r.value.length ≤ s.valuesFree →
      exec (.contribute p r.body) s =
        .next (State.accept { s.taken p with pool := s.pool ++ [entry] } p .contribute [0#8, 0#8, 0#8])) ∧
    (∀ front e back, s.pool = front ++ e :: back → mine e → (∀ x ∈ front ++ back, ¬ mine x) →
      r.value.length ≤ s.valuesFree + e.value.length →
      exec (.contribute p r.body) s =
        .next (State.accept { s.taken p with pool := front ++ entry :: back } p .contribute [0#8, 0#8, 0#8]))

/-- R88 to R91: a second of a running timer takes one from it. When it expires (the model takes the expiry in the timer's last second or
at 0, log 14) the timer goes to none and the form's policy acts: missing required fields are marked, or the job is held with JOB-HELD,
or it leaves the queue with a MERGE-VOID report at its origin. That new marks stand last in the list that holds the set is the model's
choice (log 30). -/
def Obligations.MergeTimerRunsAndExpires : Prop :=
  (∀ (s : State) (n : Nat) (j : Job) (k : Nat), s.held = false → s.job? n = some j → j.timer = some (k + 1) →
    ∃ t : State, exec (.mergeTimerSecond n) s = .next t ∧ t.job? n = some { j with timer := some k } ∧ t = { s with queue := t.queue }) ∧
  (∀ (s : State) (n : Nat) (j : Job) (f : Form), s.held = false → s.job? n = some j → s.activeForm j.form = some f →
    (j.timer = some 0 ∨ j.timer = some 1) →
    (f.policy = .fallback → ∃ t : State, exec (.mergeTimerExpiry n) s = .next t ∧
      t.job? n = some { j with timer := none, marks := j.marks ++ s.missing j } ∧
      t.missing { j with timer := none, marks := j.marks ++ s.missing j } = [] ∧ t = { s with queue := t.queue }) ∧
    (f.policy = .hold → ∃ t : State, exec (.mergeTimerExpiry n) s = .next t ∧
      t.job? n = some { j with timer := none, mergeTimeout := true } ∧ Event.jobHeld.isIn (t.port j.origin).pending = true ∧
      (∀ q, q ≠ j.origin → t.port q = s.port q) ∧ t = { s with queue := t.queue, ports := t.ports }) ∧
    (f.policy = .void → ∃ t : State, exec (.mergeTimerExpiry n) s = .next t ∧ t.queue = s.queue.filter (fun k => k.number != n) ∧
      (t.port j.origin).reports.getLast? = some (.completion {
        job := n, origin := j.origin, key := j.key, form := j.form, copy := 0, total := j.total, outcome := .mergeVoid, values := [],
        pauses := 0, masked := 0, fallbacks := 0, truncations := 0, symbolErrors := 0, mismatch := false }) ∧
      t = { s with queue := t.queue, ports := t.ports }))

/-- R85: a second adds one to every pool entry's age, and an entry that reaches 30 is discarded; a discarded entry leaves the pool, its value
is free, and CONTRIB-REFUSED is pending at its port. The model's choices (log 13): the pool's second is what a step does when no command
waits, and POOL-ENTRY-DISCARD is itself the moment the age of the entry it names reaches 30. -/
def Obligations.PoolEntriesAgeAndAreDiscarded : Prop :=
  (∀ s : State, s.pending = [] → s.held = false → ∃ t : State, step s = .next t ∧
    t.pool = (s.pool.map fun e => { e with age := e.age + 1 }).filter (fun e => decide (e.age < 30)) ∧
    (∀ (q : Port) (e : Event), e.isIn (t.port q).pending = true ↔ e.isIn (s.port q).pending = true ∨
      (e = .contribRefused ∧ ∃ x ∈ s.pool, x.port = q ∧ 29 ≤ x.age)) ∧
    (∀ q : Port, (∀ x ∈ s.pool, x.port = q → x.age < 29) → t.port q = s.port q) ∧ t = { s with pool := t.pool, ports := t.ports }) ∧
  (∀ (s : State) (key : Text) (p : Port) (field : Nat), s.held = false →
    (∀ x ∈ s.pool, ¬ (x.key = key ∧ x.port = p ∧ x.field = field)) → exec (.poolEntryDiscard key p field) s = .next s) ∧
  (∀ (s : State) (e : PoolEntry), s.held = false → e ∈ s.pool →
    ∃ t : State, exec (.poolEntryDiscard e.key e.port e.field) s = .next t ∧
      (∀ x, x ∈ t.pool ↔ x ∈ s.pool ∧ ¬ (x.key = e.key ∧ x.port = e.port ∧ x.field = e.field)) ∧
      t.valuesUsed + e.value.length ≤ s.valuesUsed ∧ Event.contribRefused.isIn (t.port e.port).pending = true ∧
      (∀ q, q ≠ e.port → t.port q = s.port q) ∧ t = { s with pool := t.pool, ports := t.ports })

/-! ### FEED and dry run -/

/-- R153, R134, R133, R155, R156: FEED in STOPPED sends the engine to REGISTERING with an unburned line in progress whose period follows
R133; DRY-RUN-ON in STOPPED enters DRY, where a FULL band at the take position that is not VOID is taken at once, and a VOID one is freed;
in any other state each is refused ENGINE-BUSY. Whether the take position has then moved on (R98) or stays until the
band is consumed (R156) is left open (log 19). R153, R139, R141: a FEED looks for the first usable edge and then for the next start beyond it, at its start and
at every reading; passed-over records leave the list where it looks and stay once the second start is found; 4,800 lines of either search
without a usable edge put the engine in FAULT with NO-GAP; at the second start it is STOPPED and chooses. That the search for the second
start is made again at each reading, and at no step without one, as R141 makes the search for a start, is the model's reading of R153
(log 17). The gap length the step leaves is within the gap limit, so that no MEDIA-OUT comes of it. -/
def Obligations.FeedAndDryRunOnNeedStopped : Prop :=
  (∀ (s : State) (p : Port), s.canTake p Kind.feed.byte [] →
      (s.engine.mode ≠ .stopped → exec (.feed p []) s = .next ((s.taken p).answer p .feed .engineBusy)) ∧
      (∀ r, s.engine.mode = .stopped → s.settings = some r → ∃ u : State, exec (.feed p []) s = .next (u.accept p .feed []) ∧
        u.engine.mode = .registering ∧ u.engine.feedCount = 0 ∧
        u.engine.line = some {
          period := max (minimumPeriod r.speed s.engine.hot) (rampFloor s.engine.prevPeriod), required := 0, burn := none, phases := [],
          strobe := .off, enabled := [] } ∧
        u.engine.edges = s.engine.edges.filter (fun x => decide (s.engine.hp ≤ x.pos + r.topOffset) || s.engine.tied x.pos) ∧
        (∀ first, first = s.engine.edges.find? (fun x => decide (s.engine.hp ≤ x.pos + r.topOffset)) →
          (s.engine.registered = false ∨ first = none → u.engine.task = .feedFirst) ∧
          (∀ x next, s.engine.registered = true → first = some x →
            next = s.engine.edges.find? (fun y => decide (x.pos < y.pos) && decide (s.engine.hp ≤ y.pos + r.topOffset)) →
            u.engine.task = match next with
              | some y => .feedTo (y.pos + r.topOffset)
              | none => .feedSecond x.pos)) ∧
        u = { s.taken p with engine := { s.engine with
          mode := u.engine.mode, task := u.engine.task, line := u.engine.line, edges := u.engine.edges, feedCount := 0 } })) ∧
  (∀ (s : State) (gap : Bool) (l : Line) (r : RunSettings) (h : HeadProfile), s.held = false → s.settings = some r → s.profile = some h →
    s.engine.mode = .registering → s.engine.line = some l → s.engine.heads = [] → s.engine.faults = .none →
    let e := ({ s.engine with hp := s.engine.hp + 1 } : Engine).read h.sensor r.nOn r.nOff gap
    let reads := decide (s.engine.mark < s.engine.hp + 1 + h.sensor)
    let ahead := fun x : Edge => decide (e.hp ≤ x.pos + r.topOffset)
    let beyond := fun (first : Int) (x : Edge) => decide (first < x.pos) && ahead x
    let feeds := fun (t : State) (task : Task) (edges : List Edge) (count : Nat) => t.engine.mode = .registering ∧ t.engine.task = task ∧
      t.engine.edges = edges ∧ t.engine.feedCount = count ∧ t.engine.hp = e.hp ∧ (∃ m, t.engine.line = some m ∧ m.burn = none) ∧
      t = { s with engine := t.engine }
    e.gapLength ≤ r.gapLimit →
    (∀ task, s.engine.task = task →
      (task = .feedFirst ∧ (reads = false ∨ e.registered = false ∨ e.edges.find? ahead = none)) ∨
        (∃ first, task = .feedSecond first ∧ (reads = false ∨ e.edges.find? (beyond first) = none)) →
      ∃ t : State, exec (.forwardStep gap) s = .next t ∧
        (s.engine.feedCount < 4799 → feeds t task (if reads then e.edges.filter ahead else s.engine.edges) (s.engine.feedCount + 1)) ∧
        (4799 ≤ s.engine.feedCount → t.engine.mode = .fault ∧ t.engine.faults = { FaultSet.none with noGap := true })) ∧
    (∀ x, s.engine.task = .feedFirst → s.engine.feedCount < 4799 → reads = true → e.registered = true → e.edges.find? ahead = some x →
      (e.edges.find? (beyond x.pos) = none →
        ∃ t : State, exec (.forwardStep gap) s = .next t ∧ feeds t (.feedSecond x.pos) (e.edges.filter ahead) 0) ∧
      (∀ y, e.edges.find? (beyond x.pos) = some y → e.hp < y.pos + r.topOffset →
        ∃ t : State, exec (.forwardStep gap) s = .next t ∧ feeds t (.feedTo (y.pos + r.topOffset)) (e.edges.filter ahead) 0)) ∧
    (∀ first y, s.engine.task = .feedSecond first → s.engine.feedCount < 4799 → reads = true →
      e.edges.find? (beyond first) = some y → e.hp < y.pos + r.topOffset →
      ∃ t : State, exec (.forwardStep gap) s = .next t ∧ feeds t (.feedTo (y.pos + r.topOffset)) (e.edges.filter ahead) 0) ∧
    (∀ target, s.engine.task = .feedTo target →
      (e.hp < target → ∃ t : State, exec (.forwardStep gap) s = .next t ∧ feeds t (.feedTo target) e.edges s.engine.feedCount) ∧
      (target = e.hp → s.takeFull? = none → ∃ t : State, exec (.forwardStep gap) s = .next t ∧ t.engine.mode = .stopped ∧
        t.engine.line = none ∧ t.engine.prevPeriod = none ∧ t.engine.hp = e.hp ∧ t.engine.edges = e.edges ∧
        t = { s with engine := t.engine }) ∧
      (∀ b x, target = e.hp → s.takeFull? = some b → b.band = 0 → b.void = false → e.registered = true →
        e.edges.find? ahead = some x → e.hp < x.pos + r.topOffset → ∃ t : State, exec (.forwardStep gap) s = .next t ∧
        t.engine.mode = .burning ∧ t.engine.task = .approach (x.pos + r.topOffset) x.pos ∧ t.engine.hp = e.hp ∧
        t = { s with engine := t.engine }))) ∧
  (∀ (s : State) (p : Port), s.canTake p Kind.dryRunOn.byte [] →
      (s.engine.mode ≠ .stopped → exec (.dryRunOn p []) s = .next ((s.taken p).answer p .dryRunOn .engineBusy)) ∧
      (s.engine.mode = .stopped → s.takeFull? = none →
        exec (.dryRunOn p []) s = .next (State.accept { s.taken p with
          engine := { s.engine with mode := .dry, dryLine := none, leavingDry := false } } p .dryRunOn [])) ∧
      (∀ r, s.engine.mode = .stopped → s.takeFull? = some r → r.void = true → (s.buffer (s.ring.take + 1)).state ≠ .full →
        ∃ u : State, exec (.dryRunOn p []) s = .next (u.accept p .dryRunOn []) ∧ u.engine.mode = .dry ∧ u.engine.dryLine = none ∧
          u.buffer s.ring.take = Buffer.empty ∧ u.ring.take = s.ring.take + 1 ∧
          (∀ i, i ≠ s.ring.take → u.buffer i = s.buffer i) ∧ (∀ q, (u.port q).reports = (s.port q).reports) ∧
          u = { s.taken p with
            ring := u.ring, labels := u.labels, queue := u.queue, ports := u.ports
            engine := { s.engine with mode := .dry, dryLine := none, leavingDry := false } }) ∧
      (∀ r, s.engine.mode = .stopped → s.takeFull? = some r → r.void = false →
        ∃ u : State, exec (.dryRunOn p []) s = .next (u.accept p .dryRunOn []) ∧ u.engine.mode = .dry ∧ u.engine.dryLine = some 0 ∧
          (u.buffer s.ring.take).state = .burning ∧
          u.ring.take = (if Config.dryMovesAtTaking then s.ring.take + 1 else s.ring.take) ∧ u.atHead r.job r.copy = true ∧
          u.engine.hp = s.engine.hp ∧ u.engine.edges = s.engine.edges ∧ u.engine.registered = s.engine.registered ∧
          u = { s.taken p with ring := u.ring, engine := u.engine }))

/-- R161, R162: DRY-RUN-OFF outside DRY, or a second one before DRY is left, is IGNORED; with a band in consumption it only marks that DRY is
to be left; else DRY is left at once: every label in flight off the redo list whose job is not cancelled ends DRY, in the order of its
label start, with its report at the origin and at every watch that wants it; ring and composer are empty, registration lost, HP and the
redo list untouched, and the engine STOPPED, or in FAULT when a fault stands. -/
def Obligations.DryRunOffLeavesDry : Prop :=
  ∀ (s : State) (p : Port), s.canTake p Kind.dryRunOff.byte [] →
    (s.engine.mode ≠ .dry → exec (.dryRunOff p []) s = .next ((s.taken p).answer p .dryRunOff .ignored)) ∧
    (∀ k, s.engine.mode = .dry → s.engine.leavingDry = false → s.engine.dryLine = some k →
      exec (.dryRunOff p []) s =
        .next (State.accept { s.taken p with engine := { s.engine with leavingDry := true } } p .dryRunOff [])) ∧
    (s.engine.mode = .dry → s.engine.leavingDry = true →
      exec (.dryRunOff p []) s = .next ((s.taken p).answer p .dryRunOff .ignored)) ∧
    (s.engine.mode = .dry → s.engine.leavingDry = false → s.engine.dryLine = none →
      ∃ u : State, exec (.dryRunOff p []) s = .next (u.accept p .dryRunOff []) ∧
        u.engine.mode = (if s.engine.faults = .none then .stopped else .fault) ∧ u.ring = Ring.empty ∧ u.hand = none ∧
        u.labels = [] ∧ u.engine.heads = [] ∧ u.engine.registered = false ∧ u.engine.edges = [] ∧ u.engine.hp = s.engine.hp ∧
        u.engine.leavingDry = false ∧
        (s.reportsBounded → (∀ l ∈ s.labels, s.holdsLabel l.job l.copy = true) → (s.labels.map fun l => (l.job, l.copy)).Nodup →
          (∀ j ∈ s.queue, j.completed + (s.labels.filter fun l => l.job = j.number).length ≤ j.total) →
          let made := (s.labels.filter fun l => !s.isCancelled l.job).filterMap fun l =>
            (s.job? l.job).map fun j => completionOf j l .dry false
          ∀ q, (u.port q).reports =
            let all := (s.port q).reports ++
              (made.filter fun c => decide (q = c.origin) || (s.port q).settings.wants c.key).map Report.completion
            all.drop (all.length - 12)) ∧
        u = { s.taken p with
          ring := u.ring, hand := u.hand, labels := u.labels, engine := u.engine, queue := u.queue, ports := u.ports })

/-! ### Event vectors, reports, watches -/

/-- R176 to R178: a post adds its event and sends one attention byte exactly when it changes the shown event to one that is enabled. A
VECTOR-QUERY answers the shown event's number, the pending set and the number of reports; it clears the shown event, but for
REPORT-WAITING, which stays, and JOB-HELD and COUNTER-EXHAUSTED, whose clear is only armed; a clear that brings an enabled event to show
sends one attention byte, which follows the reply (log 11). -/
def Obligations.VectorShowsTheHighestEvent : Prop :=
  (∀ (q : PortState) (e : Event),
    (∀ e' : Event, e'.isIn (q.post e).pending = (e'.isIn q.pending || decide (e' = e))) ∧
    (q.post e).sent = q.sent ++
      (if (∀ e' ∈ Event.all, e'.isIn q.pending = true → e'.priority < e.priority) ∧ e.isIn q.settings.attention = true
       then [Sent.attention] else [])) ∧
  (∀ (s : State) (p : Port), s.canTake p Kind.vectorQuery.byte [] → (s.port p).reports.length ≤ 12 →
    ∃ (t : State) (n : Nat), exec (.vectorQuery p []) s = .next t ∧
      (n = 0 ∨ ∃ e : Event, e.priority = n ∧ e.isIn (s.port p).pending = true) ∧
      (∀ e : Event, e.isIn (s.port p).pending = true → e.priority ≤ n) ∧
      (∃ tail : List Sent, (t.port p).sent = (s.port p).sent ++
        .reply 0xC8#8 [0#8, BitVec.ofNat 8 n, (s.port p).pending, BitVec.ofNat 8 (s.port p).reports.length] :: tail ∧
        (tail = [.attention] ∨ tail = []) ∧
        (tail = [.attention] ↔ (t.port p).pending ≠ (s.port p).pending ∧
          ∃ e : Event, e.isIn (t.port p).pending = true ∧ e.isIn (s.port p).settings.attention = true ∧
            ∀ e' : Event, e'.isIn (t.port p).pending = true → e'.priority ≤ e.priority)) ∧
      (∀ e : Event, e.isIn (t.port p).pending =
        (e.isIn (s.port p).pending &&
          decide (e.priority ≠ n ∨ e = .reportWaiting ∨ e = .jobHeld ∨ e = .counterExhausted))) ∧
      (n = Event.jobHeld.priority → (t.port p).armHeld = true) ∧
      (n = Event.counterExhausted.priority → (t.port p).armExhausted = true) ∧
      (∀ q, q ≠ p → t.port q = s.port q) ∧ t = { s with ports := t.ports })

/-- R179, R180, R175: a report placed on a full list of 12 displaces the oldest, and REPORT-WAITING is pending. A REPORT-READ removes the
oldest report and answers the displaced flag, the number left and the report; REPORT-WAITING goes with the last, and an attention byte its
clear brings follows the reply (R177, R178; log 11). With an empty list no report follows and only the displaced flag is cleared. R175: the
bytes of the two reports, entry by entry of their tables, most significant byte first. -/
def Obligations.ReportsArePlacedAndRead : Prop :=
  (∀ (q : PortState) (r : Report), q.reports.length ≤ 12 →
    (q.place r).reports = (if q.reports.length = 12 then q.reports.drop 1 else q.reports) ++ [r] ∧
    (q.place r).displaced = (q.displaced || decide (q.reports.length = 12)) ∧
    Event.reportWaiting.isIn (q.place r).pending = true) ∧
  (∀ (s : State) (p : Port) (r : Report) (rest : List Report), s.canTake p Kind.reportRead.byte [] → (s.port p).reports = r :: rest →
    ∃ (t : State) (tail : List Sent), exec (.reportRead p []) s = .next t ∧
      (t.port p).sent = (s.port p).sent ++
        .reply 0xC9#8 (0#8 :: (flag1 (s.port p).displaced ++ byte1 rest.length ++ [1#8] ++ r.bytes)) :: tail ∧
      (rest ≠ [] → tail = []) ∧ (t.port p).reports = rest ∧ (t.port p).displaced = false ∧
      Event.reportWaiting.isIn (t.port p).pending = (Event.reportWaiting.isIn (s.port p).pending && decide (rest ≠ [])) ∧
      (∀ q, q ≠ p → t.port q = s.port q) ∧ t = { s with ports := t.ports }) ∧
  (∀ (s : State) (p : Port), s.canTake p Kind.reportRead.byte [] → (s.port p).reports = [] →
    exec (.reportRead p []) s = .next (((s.taken p).accept p .reportRead (flag1 (s.port p).displaced ++ [0#8, 0#8])).onPort p
      fun q => { q with displaced := false })) ∧
  (∀ c : Completion, c.job < 65536 → (c.key.getD []).length < 256 → c.form < 256 → c.copy < 65536 → c.total < 65536 →
    c.values.length < 256 → (∀ v ∈ c.values, v.2 < 4294967296) → c.pauses < 256 → c.masked < 256 → c.fallbacks < 256 →
    c.truncations < 256 → c.symbolErrors < 256 →
    let d := c.bytes
    let k := (c.key.getD []).length
    let n := 5 * c.values.length
    d.length = 18 + k + n ∧ natAt d 0 = 0 ∧ nat2At d 1 = c.job ∧ natAt d 3 = c.origin.val ∧ natAt d 4 = k ∧
    sliceAt d 5 k = c.key.getD [] ∧ natAt d (5 + k) = c.form ∧ nat2At d (6 + k) = c.copy ∧ nat2At d (8 + k) = c.total ∧
    natAt d (10 + k) = (match c.outcome with
      | .printed => 0 | .voided => 1 | .faulted => 2 | .spoiled => 3 | .dry => 4 | .mergeVoid => 5) ∧
    natAt d (11 + k) = c.values.length ∧
    (∀ i v, c.values[i]? = some v → natAt d (12 + k + 5 * i) = v.1.val ∧ nat4At d (13 + k + 5 * i) = v.2) ∧
    natAt d (12 + k + n) = c.pauses ∧ natAt d (13 + k + n) = c.masked ∧ natAt d (14 + k + n) = c.fallbacks ∧
    natAt d (15 + k + n) = c.truncations ∧ natAt d (16 + k + n) = c.symbolErrors ∧ natAt d (17 + k + n) = c.mismatch.toNat) ∧
  (∀ b : BandReport, b.job < 65536 → b.copy < 65536 → b.band < 256 → b.burned < 65536 →
    b.bytes.length = 10 ∧ natAt b.bytes 0 = 1 ∧ nat2At b.bytes 1 = b.job ∧ nat2At b.bytes 3 = b.copy ∧ natAt b.bytes 5 = b.band ∧
    nat2At b.bytes 6 = b.burned ∧ nat2At b.bytes 8 = b.check.toNat)

/-- R181: a completion report is placed on its origin's list and on the list of every other port whose watch wants the job: watch enable
on, the job has a key, and the two filters, combined, agree with it; no other port changes. -/
def Obligations.ReportsGoToTheWatchesThatMatch : Prop :=
  (∀ (s : State) (c : Completion) (p : Port), (s.placeCompletion c).port p =
    if p = c.origin ∨ (s.port p).settings.wants c.key = true then (s.port p).place (.completion c) else s.port p) ∧
  (∀ t : PortSettings, t.wants none = false) ∧
  (∀ (t : PortSettings) (key : Text), t.filter1.pattern.length = 5 → t.filter2.pattern.length = 5 →
    let agrees := fun f : Filter => ∀ k, k < 5 → f.care.getLsbD k = true → ∃ c, key[k]? = some c ∧ f.pattern[k]? = some c
    (t.wants (some key) = true ↔ t.watch = true ∧
      match t.combine with
      | .and => agrees t.filter1 ∧ agrees t.filter2
      | .or => agrees t.filter1 ∨ agrees t.filter2
      | .nand => ¬ (agrees t.filter1 ∧ agrees t.filter2)
      | .nor => ¬ (agrees t.filter1 ∨ agrees t.filter2)))

/-! ### Resets -/

/-- R168, R20, R64: a port reset, by break or by PORT-RESET, drops the port's OPEN job and the form it is defining, and renews the port but
for its settings; PORT-RESET then answers ACCEPT. -/
def Obligations.PortResetRenewsThePort : Prop :=
  ∀ (s : State) (p : Port), s.held = false →
    ∃ t : State, exec (.lineBreak p) s = .next t ∧
      t.port p = { PortState.reset with settings := (s.port p).settings, sent := (s.port p).sent } ∧
      (∀ q, q ≠ p → t.port q = { s.port q with watch := (t.port q).watch }) ∧
      (s.openJob? p = none → t.queue = s.queue ∧ ∀ q, q ≠ p → t.port q = s.port q) ∧
      (∀ j, s.openJob? p = some j → t.queue = s.queue.filter fun k => k.number != j.number) ∧
      (s.definingSlot p = none → t.slots = s.slots) ∧
      (∀ n, s.definingSlot p = some n → t.slot n = .empty ∧ ∀ m, m ≠ n → t.slot m = s.slot m) ∧
      t = { s with ports := t.ports, queue := t.queue, slots := t.slots } ∧
      (s.canTake p Kind.portReset.byte [] → exec (.portReset p []) s = .next (t.accept p .portReset []))

/-- R186, R51: the asserted reset input holds the part: motor stopped, no line, CTS dropped on every port; while it is held no command but
POWER-UP changes anything. When it comes while a rewrite of the retained image is under way, the image may be partly the new one, and the
check word is the old one; with no rewrite under way, the retained area is as it was. That the rewrite under way is that of the first
waiting command, that each counter, the scope and each form is written as one, in any order, that an image whose scope is COUNTERS has no
forms, and which parts were written, a free value, are the model's choices (log 3). -/
def Obligations.ResetInputHoldsThePart : Prop :=
  (∀ (s : State) (cut : Bool), s.held = false → ∃ t : State, exec (.deviceResetAssert cut) s = .next t ∧ t.held = true ∧
    t.engine.line = none ∧ t.engine.prevPeriod = none ∧ (∀ p, t.port p = { s.port p with cts := false }) ∧
    t.retained.check = s.retained.check ∧
    (cut = false ∨ s.pending = [] → t.retained = s.retained ∧ t.freeTick = s.freeTick) ∧
    (∀ c rest u, s.pending = c :: rest → exec c s = .next u →
      (u.retained.image = s.retained.image → t.retained = s.retained ∧ t.freeTick = s.freeTick) ∧
      (∀ n : CounterNo, t.retained.image.counters[n] = s.retained.image.counters[n] ∨
        t.retained.image.counters[n] = u.retained.image.counters[n]) ∧
      (t.retained.image.scope = s.retained.image.scope ∨ t.retained.image.scope = u.retained.image.scope) ∧
      ∀ i : Fin 32, t.retained.image.forms[i] = s.retained.image.forms[i] ∨ t.retained.image.forms[i] = u.retained.image.forms[i] ∨
        t.retained.image.scope = .counters ∧ t.retained.image.forms[i] = none) ∧
    t = { s with held := true, engine := s.engine.motorStop, ports := t.ports, retained := t.retained, freeTick := t.freeTick }) ∧
  (∀ (s : State) (c : Instr), s.held = true → (∀ b l, c ≠ .powerUp b l) → exec c s = .next s)

/-- R186, R53, R21: power-up keeps the retained content when the backup input is good and the check word agrees, and brings back its
counters and, under COUNTERS-AND-FORMS, its forms as ACTIVE; otherwise every counter is UNDEFINED, every slot EMPTY, the scope COUNTERS
and the retained-lost flag set. Everything else is at its power-up value; the model's choices among these are that M, the search count, the
absent count and the back-feed counts, to which no rule gives a value, are 0 (log 5), that the record of what the ports have sent is begun
afresh (log 9), and that the command needs no assertion of the reset input before it (log 24). -/
def Obligations.PowerUpJudgesTheRetainedArea : Prop :=
  ∀ (s : State) (backupLow lidOpen : Bool), ∃ t : State, exec (.powerUp backupLow lidOpen) s = .next t ∧
    (backupLow = false → s.retained.sound = true →
      t.retained = s.retained ∧ t.retainedLost = false ∧ t.counters = s.retained.image.counters ∧
      ∀ i : Fin 32, t.slots[i] = match s.retained.image.scope, s.retained.image.forms[i] with
        | .countersAndForms, some f => .active f
        | _, _ => .empty) ∧
    (backupLow = true ∨ s.retained.sound = false →
      t.retained.sound = true ∧ t.retained.image.scope = .counters ∧ t.retainedLost = true ∧
      (∀ c : CounterNo, t.counters[c] = none ∧ t.retained.image.counters[c] = none) ∧ ∀ i : Fin 32, t.slots[i] = .empty) ∧
    t = { State.reset with
      pending := s.pending, freeTick := s.freeTick, counters := t.counters, slots := t.slots, retained := t.retained,
      retainedLost := t.retainedLost, engine := { Engine.reset with faults := { FaultSet.none with headOpen := lidOpen } } }

/-! ### Sensors, the lid and faults -/

/-- R119, R120, R150: a reading is stored with T clamped to -20..120, V10 as delivered, and hot mode judged about H; with no fault standing
and none raised nothing else changes; T at H + 15 or more, or V10 below 190, puts its fault in the set. R150, R152: in FAULT, T at H or
less clears OVERHEAT and V10 at 195 or more SUPPLY-LOW; the set alone changes while a fault remains, and with the last the engine leaves
FAULT with ENGINE-READY at every port. R151: in FAULT a further fault joins the set, which alone changes, while one of those standing is
kept; where the reading clears all of them too, FAULT stands with the new set whichever is taken first, left and entered again with both
events at every port if the clearing is (log 4). R160, R151: in UNSET and DRY the set alone changes. Before a head profile, in UNSET, the
reading is stored and V10 alone judged; OVERHEAT and hot mode stay. -/
def Obligations.ReadingsAreStoredAndJudged : Prop :=
  (∀ (s : State) (temp : Int) (volt : Nat) (h : HeadProfile), s.held = false → s.profile = some h → s.engine.faults = .none →
      h.threshold ≤ 75 → 45 ≤ h.threshold →
      (temp < (h.threshold : Int) + 15 → 190 ≤ volt →
        exec (.sensorReading temp volt) s = .next { s with engine := { s.engine with
          temperature := max (-20) (min 120 temp), voltage := volt,
          hot := if s.engine.hot then decide ((h.threshold : Int) - 5 < temp) else decide ((h.threshold : Int) ≤ temp) } }) ∧
      ((h.threshold : Int) + 15 ≤ temp ∨ volt < 190 → ∃ t : State, exec (.sensorReading temp volt) s = .next t ∧
        t.engine.temperature = max (-20) (min 120 temp) ∧ t.engine.voltage = volt ∧
        t.engine.faults.overheat = decide ((h.threshold : Int) + 15 ≤ temp) ∧ t.engine.faults.supplyLow = decide (volt < 190) ∧
        (s.engine.mode.entersFault = true → t.engine.mode = .fault) ∧ (s.engine.mode.entersFault = false → t.engine.mode = s.engine.mode) ∧
        t = { s with
          engine := t.engine, ports := t.ports, ring := t.ring, hand := t.hand, labels := t.labels, queue := t.queue, redo := t.redo })) ∧
  (∀ (s : State) (temp : Int) (volt : Nat) (h : HeadProfile), s.held = false → s.profile = some h → h.threshold ≤ 75 →
    45 ≤ h.threshold →
    let f := s.engine.faults
    let after : FaultSet := { f with
      overheat := decide ((h.threshold : Int) + 15 ≤ temp) || f.overheat && decide ((h.threshold : Int) < temp)
      supplyLow := decide (volt < 190) || f.supplyLow && decide (volt < 195) }
    let e : Engine := { s.engine with
      temperature := max (-20) (min 120 temp), voltage := volt, faults := after,
      hot := if s.engine.hot then decide ((h.threshold : Int) - 5 < temp) else decide ((h.threshold : Int) ≤ temp) }
    (s.engine.mode = .unset ∨ s.engine.mode = .dry →
      ∃ n, exec (.sensorReading temp volt) s = .next { s with engine := e, freeTick := n }) ∧
    (s.engine.mode = .fault → f ≠ .none → temp < (h.threshold : Int) + 15 → 190 ≤ volt →
      (after ≠ .none → exec (.sensorReading temp volt) s = .next { s with engine := e }) ∧
      (after = .none → ∃ t : State, exec (.sensorReading temp volt) s = .next t ∧ t.engine.faults = .none ∧ t.engine.mode ≠ .fault ∧
        t.engine.temperature = e.temperature ∧ t.engine.voltage = volt ∧ t.engine.hot = e.hot ∧
        (∀ p, Event.engineReady.isIn (t.port p).pending = true) ∧
        (s.engine.heads = [] → (∀ i, (s.buffer i).state = .free) → t.engine.mode = .stopped) ∧
        t = { s with engine := t.engine, ports := t.ports, ring := t.ring, labels := t.labels, queue := t.queue })) ∧
    let kept : FaultSet := { f with
      overheat := f.overheat && decide ((h.threshold : Int) < temp), supplyLow := f.supplyLow && decide (volt < 195) }
    (s.engine.mode = .fault → kept ≠ .none →
      ∃ n, exec (.sensorReading temp volt) s = .next { s with engine := e, freeTick := n }) ∧
    (s.engine.mode = .fault → f ≠ .none → kept = .none → (h.threshold : Int) + 15 ≤ temp ∨ volt < 190 →
      exec (.sensorReading temp volt) s = .next { s with engine := e, freeTick := s.freeTick + 1 } ∨
      ∃ t : State, exec (.sensorReading temp volt) s = .next t ∧ t.engine.mode = .fault ∧ t.engine.faults = after ∧
        t.engine.temperature = e.temperature ∧ t.engine.voltage = volt ∧ t.engine.hot = e.hot ∧
        (∀ p, Event.engineReady.isIn (t.port p).pending = true ∧ Event.engineFault.isIn (t.port p).pending = true) ∧
        t = { s with
          engine := t.engine, ports := t.ports, ring := t.ring, hand := t.hand, labels := t.labels, queue := t.queue, redo := t.redo,
          freeTick := s.freeTick + 1 })) ∧
  (∀ (s : State) (temp : Int) (volt : Nat), s.held = false → s.profile = none → s.engine.mode = .unset →
    exec (.sensorReading temp volt) s = .next { s with engine := { s.engine with
      temperature := max (-20) (min 120 temp), voltage := volt,
      faults := { s.engine.faults with supplyLow := decide (volt < 190) || s.engine.faults.supplyLow && decide (volt < 195) } } })

/-- R150, R151: the lid opening with no fault standing, in a state that faults stop, puts the engine in FAULT: motor stopped, no line and
no dot enabled, ring flushed, composer's label dropped, no label at the head, registration lost, the sensor begun afresh from HP + S,
HP as it was, and ENGINE-FAULT pending at every port. R151, R160: with a fault standing already, or in UNSET, DRY or FAULT, HEAD-OPEN
joins the set and nothing else changes. -/
def Obligations.LidOpenStopsTheEngine : Prop :=
  (∀ s : State, s.held = false → s.engine.faults = .none → s.engine.mode ≠ .unset → s.engine.mode ≠ .dry → s.engine.mode ≠ .fault →
    ∃ t : State, exec .lidSwitchOpen s = .next t ∧ t.engine.mode = .fault ∧ t.engine.faults = { FaultSet.none with headOpen := true } ∧
      t.engine.line = none ∧ t.engine.heats = false ∧ t.engine.prevPeriod = none ∧ t.ring = Ring.empty ∧ t.hand = none ∧
      t.engine.heads = [] ∧ t.engine.registered = false ∧ t.engine.edges = [] ∧ t.engine.gap = false ∧ t.engine.hp = s.engine.hp ∧
      t.engine.mark = s.engine.hp + s.profile.elim 0 HeadProfile.sensor ∧
      (∀ p, Event.engineFault.isIn (t.port p).pending = true) ∧
      t = { s with
        engine := t.engine, ports := t.ports, ring := t.ring, hand := t.hand, labels := t.labels, queue := t.queue, redo := t.redo }) ∧
  (∀ s : State, s.held = false →
    s.engine.faults ≠ .none ∨ s.engine.mode = .unset ∨ s.engine.mode = .dry ∨ s.engine.mode = .fault →
    exec .lidSwitchOpen s = .next { s with engine := { s.engine with faults := { s.engine.faults with headOpen := true } } })

/-- R150, R152: the lid closing takes HEAD-OPEN, MEDIA-OUT and NO-GAP out of the set; when the set is then empty the engine leaves FAULT
with ENGINE-READY pending at every port, and when a fault remains the set alone changes. R160: so it does in UNSET and DRY, and in every
state but FAULT, whatever remains. -/
def Obligations.LidClosedClearsItsFaults : Prop :=
  (∀ s : State, s.held = false → s.engine.mode ≠ .fault →
    exec .lidSwitchClosed s = .next { s with engine := { s.engine with
      faults := { s.engine.faults with headOpen := false, mediaOut := false, noGap := false } } }) ∧
  (∀ s : State, s.held = false → s.engine.mode = .fault →
    ((s.engine.faults.overheat = true ∨ s.engine.faults.supplyLow = true) →
      exec .lidSwitchClosed s = .next { s with engine := { s.engine with
        faults := { s.engine.faults with headOpen := false, mediaOut := false, noGap := false } } }) ∧
    (s.engine.faults ≠ .none → s.engine.faults.overheat = false → s.engine.faults.supplyLow = false →
      ∃ t : State, exec .lidSwitchClosed s = .next t ∧ t.engine.faults = .none ∧ t.engine.mode ≠ .fault ∧
        (∀ p, Event.engineReady.isIn (t.port p).pending = true) ∧
        (s.engine.heads = [] → (∀ i, (s.buffer i).state = .free) → t.engine.mode = .stopped) ∧
        t = { s with engine := t.engine, ports := t.ports, ring := t.ring, labels := t.labels, queue := t.queue }))

/-- R114, R115, R151: the fault of an open lid loses no label: a label in the ring or in hand and not at the head, of a job that is not
cancelled, becomes a redo entry with its copy index and values; the first label at the head that has lines to burn does too, at the
front; entries of the list before stay behind. The new entries, of labels in flight of jobs not cancelled, each once, stand behind that
one in the order of the labels' oldest bands from the take position, a label in hand with no band in the ring last. R154: one label at the head ends with its report: PRINTED when all its lines are burned,
VOIDED when its job is cancelled, else FAULTED. -/
def Obligations.FaultPutsLabelsOnTheRedoList : Prop :=
  ∀ s : State, s.held = false → s.engine.faults = .none → s.engine.mode.entersFault = true →
    let bandAt := fun (k : Fin 8) (e : RedoEntry) => (s.buffer (s.ring.take + k)).holds e.job e.copy = true
    ∃ (t : State) (front : List RedoEntry), exec .lidSwitchOpen s = .next t ∧ t.redo = front ++ s.redo ∧
      (∀ l job copy, s.label? job copy = some l → s.isCancelled job = false → s.inRing job copy = true ∨ s.inHand job copy = true →
        s.atHead job copy = false → ({ job := job, copy := copy, values := l.values } : RedoEntry) ∈ front) ∧
      (∀ h l, s.engine.heads = [h] → h.out = false → h.done < h.length → s.isCancelled h.job = false → s.label? h.job h.copy = some l →
        front.head? = some { job := h.job, copy := h.copy, values := l.values }) ∧
      ((front.map fun e => (e.job, e.copy)).Nodup ∧
        (front.Pairwise fun x y => s.atHead x.job x.copy = true ∨ ∃ k, bandAt k x ∧ ∀ i, i ≤ k → ¬ bandAt i y) ∧
        ∀ e ∈ front, (s.holdsLabel e.job e.copy = true) ∧ (∃ l, s.label? e.job e.copy = some l ∧ e.values = l.values) ∧
          ((∀ j ∈ s.queue, j.completed + (s.labels.filter fun l => l.job = j.number).length ≤ j.total) → s.isCancelled e.job = false)) ∧
      (∀ h l j, s.engine.heads = [h] → h.out = true ∨ h.done < h.length → s.label? h.job h.copy = some l → s.job? h.job = some j →
        ∃ c : Completion, (t.port j.origin).reports.getLast? = some (.completion c) ∧ c.job = j.number ∧ c.copy = l.copy ∧
          c.values = l.values ∧ c.pauses = l.pauses ∧
          c.outcome = if h.out then .printed else if j.cancelled then .voided else .faulted)

/-! ### Bands -/

/-- R97, R102: the composer takes the FREE buffer at the fill position: FILLING, with the band record of its label's next band (64 lines,
or what is left of the label), and no other buffer changes. -/
def Obligations.ComposerTakesTheFillBuffer : Prop :=
  ∀ (s : State) (h : Hand) (j : Job) (f : Form), s.held = false → s.hand = some h → s.filling? = none → s.job? h.job = some j →
    s.activeForm j.form = some f → (s.buffer s.ring.fill).state = .free → 64 * h.nextBand < f.length →
    ∃ (t : State) (r : BandRecord), exec .bandTake s = .next t ∧ (t.buffer s.ring.fill).state = .filling ∧ (t.buffer s.ring.fill).record = some r ∧
      r.job = h.job ∧ r.copy = h.copy ∧ r.band = h.nextBand ∧ r.first = 64 * h.nextBand ∧ 1 ≤ r.count ∧ r.count ≤ 64 ∧
      (r.last = true ↔ r.first + r.count = f.length) ∧ (r.last = false → r.count = 64) ∧ r.first + r.count ≤ f.length ∧ r.void = false ∧ r.check = 0#16 ∧
      (∀ i, i ≠ s.ring.fill → t.buffer i = s.buffer i) ∧ t.ring.fill = s.ring.fill + 1 ∧ t.ring.take = s.ring.take ∧
      t = { s with ring := t.ring, hand := some { h with nextBand := h.nextBand + 1 } }

/-- R103, R106, R108, R110, R111: at the end of a fill the band is FULL: each of its dots within the label holds what the form's fields
wrote in list order, every other dot is blank, and the check value is that of its burn bits; a last band ends the composer's label, and
band 0 settles the label's counts (R109). What the engine does with the FULL band at the take position: STOPPED, it goes REGISTERING for
a band 0 with registration lost, or BURNING towards the usable edge's start (R141); PAUSED, it takes the band its label waits for and
burns on (R143); PRESENTING in TEAR mode, it begins the owed retract (R147); in DRY it takes the band (R156; log 19). -/
def Obligations.FillMakesTheBandFull : Prop :=
  ∀ (s : State) (h : Hand) (i : Fin 8) (r : BandRecord) (j : Job) (f : Form) (hp : HeadProfile) (l : LabelRecord), s.held = false →
    s.hand = some h → s.filling? = some i → (s.buffer i).record = some r → s.job? h.job = some j → s.activeForm j.form = some f →
    s.profile = some hp → s.label? h.job h.copy = some l → r.count ≤ 64 →
    let rendered := renderLabel f j l.values h.copy h.snapshot
    let counted := s.labels.map fun m => if r.band = 0 ∧ m.job = h.job ∧ m.copy = h.copy then { m with
      truncations := (rendered.filter fun e => e.2.1.truncated).length
      symbolErrors := (rendered.filter fun e => e.2.1.symbolError).length
      masked := (rendered.filter fun e => e.2.1.drawn.draws && decide (e.2.2 = 0#4)).length } else m
    (s.engine.mode = .registering ∨ s.engine.mode = .burning ∨ s.engine.mode = .retracting ∨ s.engine.mode = .fault →
      ∃ (t : State) (cells : List (List Cell)), exec .bandFillComplete s = .next t ∧
        t.buffer i = { state := .full, record := some { r with check := bandCheck f.printPlanes r.count cells }, cells := cells } ∧
        cells.length = 64 ∧
        (∀ y x, y < 64 → x < hp.dots → (cells.getD y []).getD x Cell.blank =
          if y < r.count ∧ x < f.width then
            composeDot (drawnFields (renderLabel f j l.values h.copy h.snapshot)) x (r.first + y)
          else Cell.blank) ∧
        (∀ k, k ≠ i → t.buffer k = s.buffer k) ∧ t.hand = (if r.last then none else some h) ∧
        t.labels = counted ∧ t = { s with ring := t.ring, hand := t.hand, labels := t.labels }) ∧
    (s.engine.mode = .stopped → i = s.ring.take → r.band = 0 → r.void = false → s.engine.registered = false → s.settings ≠ none →
      ∃ t : State, exec .bandFillComplete s = .next t ∧ t.engine.mode = .registering ∧ t.engine.task = .seek ∧
        (t.buffer i).state = .full ∧ t.engine.hp = s.engine.hp ∧
        t = { s with ring := t.ring, hand := t.hand, labels := t.labels, engine := t.engine }) ∧
    (∀ x : Edge, s.engine.mode = .stopped → i = s.ring.take → r.band = 0 → r.void = false → s.engine.registered = true →
      s.engine.edges.find? (fun y => decide (s.engine.hp ≤ y.pos + s.topOffset)) = some x → s.engine.hp < x.pos + s.topOffset →
      ∃ t : State, exec .bandFillComplete s = .next t ∧ t.engine.mode = .burning ∧ t.engine.task = .approach (x.pos + s.topOffset) x.pos ∧
        (t.buffer i).state = .full ∧ t.engine.hp = s.engine.hp ∧ t.labels = counted ∧
        t = { s with ring := t.ring, hand := t.hand, labels := t.labels, engine := t.engine }) ∧
    (∀ (b : HeadLabel) (rs : RunSettings), s.engine.mode = .paused → i = s.ring.take → s.engine.heads.find? (fun x => !x.out) = some b →
      b.spoiled = false → s.isCancelled b.job = false → (∀ k, (s.buffer k).state ≠ .burning) → r.job = b.job → r.copy = b.copy →
      r.first ≤ b.done → b.done < r.first + r.count → s.settings = some rs →
      ∃ (t : State) (m : Line), exec .bandFillComplete s = .next t ∧ t.engine.mode = .burning ∧ (t.buffer i).state = .burning ∧
        t.ring.take = s.ring.take + 1 ∧ t.engine.line = some m ∧ m.burn.isSome = true ∧ t.engine.heads = s.engine.heads ∧
        t.labels = counted ∧ t = { s with ring := t.ring, hand := t.hand, labels := t.labels, engine := t.engine }) ∧
    (s.engine.mode = .presenting → s.peels = false → i = s.ring.take → r.band = 0 → r.void = false → 0 < hp.peel →
      ∃ t : State, exec .bandFillComplete s = .next t ∧ t.engine.mode = .retracting ∧ t.engine.backLeft = hp.peel ∧
        t.engine.backPeriod = 8000 ∧ (t.buffer i).state = .full ∧ t.engine.hp = s.engine.hp ∧ t.labels = counted ∧
        t = { s with ring := t.ring, hand := t.hand, labels := t.labels, engine := t.engine }) ∧
    (s.engine.mode = .dry → s.engine.leavingDry = false → s.engine.dryLine = none → i = s.ring.take → r.void = false →
      ∃ t : State, exec .bandFillComplete s = .next t ∧ t.engine.mode = .dry ∧ t.engine.dryLine = some 0 ∧
        (t.buffer i).state = .burning ∧ t.ring.take = (if Config.dryMovesAtTaking then s.ring.take + 1 else s.ring.take) ∧
        t.atHead r.job r.copy = true ∧ t.labels = counted ∧
        t = { s with ring := t.ring, hand := t.hand, labels := t.labels, engine := t.engine })

/-- R106: the dot write rule. What a field's ink dots are: R23: rotation and anchor carry each dot of a field's frame to a label dot, and no
other dot is the field's. R104, R105: a field's ink touches the planes that its own set, or for a STAMP its acting port's stamp planes,
shares with its acting port's plane mask. R7, R22: the content of a field is its fixed text, its job value, or its contribution, else under a
mark its fallback text, else it is absent. R22, R26 to R29: a counter's digits, a copy index, and a text cut to its maximum, each character's
glyph dot a block of dots; the space has no ink. R30 to R37: a two-of-five symbol, its check digit, width, bars and readable line, or a
symbol error. R38: a box. R107: a stamp, its stencil tiled; with source CONTRIB it draws for the content "Y" alone (R7, R105). The glyphs other than the space are free (log 1), and the statement holds for
any. -/
def Obligations.DotIsWrittenUnlessRankedAbove : Prop :=
  (∀ (c : Cell) (planes : Planes) (clears : Bool) (rank : Nat),
    (rank < c.rank → writeDot c planes clears rank = c) ∧
    (c.rank ≤ rank → (writeDot c planes clears rank).rank = rank ∧
      ∀ k, k < 4 → (writeDot c planes clears rank).planes.getLsbD k =
        if clears then c.planes.getLsbD k && !planes.getLsbD k else c.planes.getLsbD k || planes.getLsbD k)) ∧
  (∀ d : DrawnField,
    let w := d.drawn.frame.1
    let h := d.drawn.frame.2
    let carried := fun u v : Nat => match d.rotation with
      | .deg0 => (u, v)
      | .deg90 => (h - 1 - v, u)
      | .deg180 => (w - 1 - u, h - 1 - v)
      | .deg270 => (v, w - 1 - u)
    (∀ u v, u < w → v < h → d.inks (d.x + (carried u v).1) (d.y + (carried u v).2) = d.drawn.ink u v) ∧
    ∀ x y, d.inks x y = true → ∃ u v, u < w ∧ v < h ∧ x = d.x + (carried u v).1 ∧ y = d.y + (carried u v).2) ∧
  (∀ (snapshot : Vector PortPlanes 4) (j : Job) (f : Field) (p : PortPlanes),
    p = snapshot[match f.source with | .contrib q => q | _ => j.origin] →
    ∀ k, k < 4 → (effectivePlanes snapshot j f).getLsbD k =
      ((match f.part with | .stamp .. => p.stamp.getLsbD k | _ => f.planeByte.getLsbD k) && p.mask.getLsbD k)) ∧
  (∀ (j : Job) (values : Values) (copy : Nat) (f : Field),
    let is := fun content : Option Text => fieldContent j values copy f = (content, false)
    (f.source = .fixed → is (some f.fixedText)) ∧
    (f.source = .job →
      (∀ v, (f.number, v) ∈ j.data → (j.data.map Prod.fst).Nodup → is (some v)) ∧ ((∀ v, (f.number, v) ∉ j.data) → is none)) ∧
    (∀ p, f.source = .contrib p →
      (∀ c ∈ j.contribs, c.field = f.number → (j.contribs.map Contribution.field).Nodup → is (some c.value)) ∧
      ((∀ c ∈ j.contribs, c.field ≠ f.number) →
        (f.number ∈ j.marks → f.fallback ≠ [] → is (some f.fallback)) ∧ (f.number ∉ j.marks ∨ f.fallback = [] → is none))) ∧
    let isNumber := fun (t : Text) (n : Nat) =>
      (∀ ch ∈ t, 48 ≤ ch.toNat ∧ ch.toNat ≤ 57) ∧ t.foldl (fun a ch => 10 * a + (ch.toNat - 48)) 0 = n
    (∀ c k n, f.source = .counter c k → values.find? (fun v => v.1 == c) = some (c, n) →
      ∃ t, fieldContent j values copy f = (some t, decide (10 ^ k ≤ n)) ∧ t.length = k ∧ isNumber t (n % 10 ^ k)) ∧
    (f.source = .copyIndex → 1 ≤ copy → copy ≤ 999 → 1 ≤ j.total → j.total ≤ 999 →
      ∃ a b, fieldContent j values copy f = (some (a ++ 47#8 :: b), false) ∧ isNumber a copy ∧ isNumber b j.total ∧
        a.head? ≠ some 48#8 ∧ b.head? ≠ some 48#8)) ∧
  (Font.cell .s = (10, 16) ∧ Font.cell .m = (14, 24) ∧ Font.cell .l = (20, 32) ∧ ∀ font a b, glyphInk font 32#8 a b = false) ∧
  (∀ (form : Form) (f : Field) (content : Option Text) (short : Bool),
    let r := renderField form (content, short) f
    (content = none ∨ content = some [] → (∃ font hs vs m, f.part = .text font hs vs m) ∨
        (∃ n w hb mod10 red readable wide, f.part = .barcode n w hb mod10 red readable wide) → r = ⟨.nothing, false, false⟩) ∧
    (∀ t font hs vs m, content = some t → t ≠ [] → f.part = .text font hs vs m →
      r.truncated = (short || decide (m < t.length)) ∧ r.symbolError = false ∧
      r.drawn.frame = (min m t.length * font.cell.1 * hs, font.cell.2 * vs) ∧
      ∀ i c a b p q, i < m → t[i]? = some c → a < font.cell.1 → b < font.cell.2 → p < hs → q < vs →
        r.drawn.ink (i * font.cell.1 * hs + a * hs + p) (b * vs + q) = glyphInk font c a b) ∧
    (∀ w h b, f.part = .box w h b → r.truncated = false ∧ r.symbolError = false ∧ r.drawn.frame = (w, h) ∧
      ∀ u v, u < w → v < h → (r.drawn.ink u v = true ↔
        b = 0 ∨ u < b ∨ (w : Int) - b ≤ u ∨ v < b ∨ (h : Int) - b ≤ v)) ∧
    (∀ n w h p, f.part = .stamp n w h → f.source = .contrib p → content ≠ some [89#8] → r = ⟨.nothing, false, false⟩) ∧
    (∀ n w h st, f.part = .stamp n w h → (∀ p, f.source ≠ .contrib p) ∨ content = some [89#8] → form.stencil? n = some st →
      r.drawn.draws = true ∧ r.truncated = false ∧ r.symbolError = false ∧
      r.drawn.frame = (w, h) ∧ ∀ u v row, st.rows[v % st.rows.length]? = some row →
        (r.drawn.ink u v = true ↔ row.getLsbD (31 - u % 32) = false)) ∧
    (∀ t n w hb mod10 red readable boxWidth, content = some t → t ≠ [] → f.part = .barcode n w hb mod10 red readable boxWidth →
      r.truncated = short ∧
      ((∃ c ∈ t, c.toNat < 48 ∨ 57 < c.toNat) → r.drawn = .nothing ∧ r.symbolError = true) ∧
      ∀ data check digits, t = data.map (fun x => BitVec.ofNat 8 (48 + x)) → (∀ x ∈ data, x ≤ 9) → check ≤ 9 →
        (check + ((List.range data.length).map fun i => (if i % 2 = 0 then 3 else 1) * data.reverse.getD i 0).sum) % 10 = 0 →
        digits = (if (if mod10 then data ++ [check] else data).length % 2 = 1 then 0 :: (if mod10 then data ++ [check] else data)
          else if mod10 then data ++ [check] else data) →
        let width := 20 * n + 4 * n + digits.length / 2 * (6 * n + 4 * w) + (w + 2 * n)
        (48 < digits.length ∨ boxWidth < width → r.drawn = .nothing ∧ r.symbolError = true) ∧
        (digits.length ≤ 48 → width ≤ boxWidth →
          let wide := fun x k : Nat =>
            ([[2, 3], [0, 4], [1, 4], [0, 1], [2, 4], [0, 2], [1, 2], [3, 4], [0, 3], [1, 3]].getD x []).contains k
          let size := fun x k : Nat => if wide x k then w else n
          let elements : List (Bool × Nat) :=
            [(false, 10 * n), (true, n), (false, n), (true, n), (false, n)] ++
            ((List.range (digits.length / 2)).flatMap fun i => (List.range 5).flatMap fun k =>
              [(true, size (digits.getD (2 * i) 0) k), (false, size (digits.getD (2 * i + 1) 0) k)]) ++
            [(true, w), (false, n), (true, n), (false, 10 * n)]
          (elements.map Prod.snd).sum = width ∧ r.symbolError = false ∧
          r.drawn.frame = (width, if readable then hb + 18 else hb) ∧
          (∀ u v, v < hb → (r.drawn.ink u v = true ↔ ∃ front e back, elements = front ++ (true, e) :: back ∧
            (front.map Prod.snd).sum ≤ u ∧ u < (front.map Prod.snd).sum + (e - red))) ∧
          (readable = true → (∀ u, r.drawn.ink u hb = false ∧ r.drawn.ink u (hb + 1) = false) ∧
            ∀ (i x a b u : Nat), digits[i]? = some x → a < 10 → b < 16 →
              (u : Int) = 10 * n + ((width : Int) - 20 * n - 10 * digits.length) / 2 + 10 * i + a →
              r.drawn.ink u (hb + 2 + b) = glyphInk .s (BitVec.ofNat 8 (48 + x)) a b))))

/-! ### Motion and heat -/

/-- R126, R133, R137, R138: a forward step raises HP by one; the mark follows the sensor unless a fault resets it; and whatever line is in
progress afterwards has a period not below the minimum of its speed, and not below seven eighths of the period just ended, or the motor
stopped at the step and the line starts from standstill. R138 to R140: on the way to a start, a reading already taken is not taken again;
a reading moves the run counts, the gap length, and, at a turn, the gap decision, the edge list and registration, whatever labels are being
carried out meanwhile; a full list keeps the records of labels at the head. R141, R150: a reading that takes the gap length beyond the gap
limit puts the engine in FAULT with MEDIA-OUT; that a step without a reading raises none, also where the gap length stands beyond a
lowered limit, is the model's reading (log 27). 4,800 lines of a search that finds no edge put the engine in FAULT with NO-GAP; the step
that finds an edge ends the search, and the engine approaches the edge's start. -/
def Obligations.ForwardStepMovesAndSenses : Prop :=
  (∀ (s : State) (gap : Bool) (l : Line) (r : RunSettings), s.held = false → s.settings = some r → s.engine.line = some l →
    (s.engine.mode = .registering ∨ s.engine.mode = .burning) →
    ∃ t : State, exec (.forwardStep gap) s = .next t ∧ t.engine.hp = s.engine.hp + 1 ∧
      t = { s with
        engine := t.engine, ring := t.ring, hand := t.hand, labels := t.labels, redo := t.redo, queue := t.queue, ports := t.ports,
        freeTick := t.freeTick } ∧
      (t.engine.mode ≠ .fault → t.engine.mark = max s.engine.mark (s.engine.hp + 1 + s.profile.elim 0 HeadProfile.sensor)) ∧
      ∀ m, t.engine.line = some m →
        minimumPeriod r.speed t.engine.hot ≤ m.period ∧ m.required ≤ m.period ∧
        ((t.engine.prevPeriod = some l.period ∧ 7 * l.period ≤ 8 * m.period) ∨ (t.engine.prevPeriod = none ∧ 8000 ≤ m.period))) ∧
  (∀ (s : State) (gap : Bool) (l : Line) (r : RunSettings) (h : HeadProfile) (start edge : Int), s.held = false → s.settings = some r →
    s.profile = some h → s.engine.mode = .burning → s.engine.line = some l → l.burn = none → s.engine.task = .approach start edge →
    s.engine.hp + 1 < start → (∀ b ∈ s.engine.heads, b.out = true ∧ (r.present = .peel ∨ s.engine.hp + 1 < s.presentPosition b)) →
    s.engine.faults = .none →
    let e := s.engine
    let pos := e.hp + 1 + h.sensor
    (pos ≤ e.mark → r.gapLimit < e.gapLength → ∃ t : State, exec (.forwardStep gap) s = .next t ∧ t.engine.mode = .burning ∧
      t.engine.faults = .none ∧ t.engine.gapLength = e.gapLength ∧ t = { s with engine := t.engine }) ∧
    (e.gapLength < r.gapLimit ∨ pos ≤ e.mark ∧ e.gapLength ≤ r.gapLimit → ∃ t : State, exec (.forwardStep gap) s = .next t ∧ t = { s with engine := t.engine } ∧
      t.engine.mode = .burning ∧ t.engine.task = .approach start edge ∧ t.engine.heads = e.heads ∧ t.engine.mark = max e.mark pos ∧
      let sensed := fun (decision : Bool) (gapRun labelRun gapLength : Nat) (edges : List Edge) (registered : Bool) =>
        t.engine.gap = decision ∧ t.engine.gapRun = gapRun ∧ t.engine.labelRun = labelRun ∧ t.engine.gapLength = gapLength ∧
          t.engine.edges = edges ∧ t.engine.registered = registered
      (pos ≤ e.mark → sensed e.gap e.gapRun e.labelRun e.gapLength e.edges e.registered) ∧
      (e.mark < pos → e.gap = false → gap = false → sensed false 0 e.labelRun e.gapLength e.edges e.registered) ∧
      (e.mark < pos → e.gap = false → gap = true → e.gapRun + 1 < r.nOn →
        sensed false (e.gapRun + 1) e.labelRun e.gapLength e.edges e.registered) ∧
      (e.mark < pos → e.gap = false → gap = true → r.nOn ≤ e.gapRun + 1 →
        (∀ (front : List Edge) (x : Edge), e.edges = front ++ [x] → x.length = none →
          sensed true 0 0 1 (front ++ [{ x with length := some (pos - ((r.nOn : Int) - 1) - x.pos) }]) e.registered) ∧
        ((∀ x, e.edges.getLast? = some x → x.length ≠ none) → sensed true 0 0 1 e.edges e.registered)) ∧
      (e.mark < pos → e.gap = true → gap = true → sensed true e.gapRun 0 (e.gapLength + 1) e.edges e.registered) ∧
      (e.mark < pos → e.gap = true → gap = false → e.labelRun + 1 < r.nOff →
        sensed true e.gapRun (e.labelRun + 1) (e.gapLength + 1) e.edges e.registered) ∧
      (e.mark < pos → e.gap = true → gap = false → r.nOff ≤ e.labelRun + 1 →
        (e.edges.length < 32 → sensed false 0 0 0 (e.edges ++ [{ pos := pos - ((r.nOff : Int) - 1), length := none }]) true) ∧
        (32 ≤ e.edges.length → sensed false 0 0 0 (e.edges.filter fun x => e.heads.any fun b => b.edge == some x.pos) false))) ∧
    (e.mark < pos → e.gap = true → (gap = true ∨ e.labelRun + 1 < r.nOff) → e.gapLength = r.gapLimit →
      ∃ t : State, exec (.forwardStep gap) s = .next t ∧ t.engine.mode = .fault ∧
        t.engine.faults = { FaultSet.none with mediaOut := true } ∧ t.engine.line = none ∧ t.engine.hp = e.hp + 1 ∧
        t.engine.edges = [] ∧ t.engine.registered = false ∧ t.engine.gap = false ∧ t.engine.gapLength = 0 ∧
        ∀ p, Event.engineFault.isIn (t.port p).pending = true)) ∧
  (∀ (s : State) (gap : Bool) (l : Line) (r : RunSettings) (b : BandRecord), s.held = false → s.settings = some r →
    s.engine.mode = .registering → s.engine.task = .seek → s.engine.line = some l → s.engine.registered = false →
    s.engine.heads = [] → s.engine.faults = .none → s.takeFull? = some b → b.band = 0 → b.void = false →
    let pos := s.engine.hp + 1 + s.profile.elim 0 HeadProfile.sensor
    let read := ({ s.engine with hp := s.engine.hp + 1 } : Engine).read (s.profile.elim 0 HeadProfile.sensor) r.nOn r.nOff gap
    (read.registered = false → read.gapLength ≤ r.gapLimit →
      ∃ t : State, exec (.forwardStep gap) s = .next t ∧ t.engine.hp = s.engine.hp + 1 ∧
        (s.engine.feedCount < 4799 → t.engine.mode = .registering ∧ t.engine.task = .seek ∧ t.engine.feedCount = s.engine.feedCount + 1 ∧
          t = { s with engine := t.engine }) ∧
        (4799 ≤ s.engine.feedCount → t.engine.mode = .fault ∧ t.engine.faults = { FaultSet.none with noGap := true } ∧
          t.engine.line = none ∧ ∀ p, Event.engineFault.isIn (t.port p).pending = true)) ∧
    (∀ edge, edge = pos - ((r.nOff : Int) - 1) → s.engine.mark < pos → s.engine.gap = true → gap = false → r.nOff ≤ s.engine.labelRun + 1 →
      s.engine.edges = [] → s.engine.feedCount < 4799 → s.engine.hp + 1 < edge + r.topOffset →
      ∃ t : State, exec (.forwardStep gap) s = .next t ∧ t.engine.mode = .burning ∧ t.engine.task = .approach (edge + r.topOffset) edge ∧
        t.engine.edges = [{ pos := edge, length := none }] ∧ t.engine.registered = true ∧ t.engine.hp = s.engine.hp + 1 ∧
        t = { s with engine := t.engine }))

/-- R141, R142, R129: the step that brings HP to a chosen start burns line 0: the label waiting at the take position is at the head from
that start and tied to its edge, its band is BURNING, and the line is planned from the band's burn bits, the class times and the line
history. R142, R182: so is each later line, y + 1 after y, from the buffer line y + 1 less the band's first line of the BURNING band, or of
the FULL band then taken at the take position when line y was its band's last, which is freed; a line y that was burned is handed to the
watches. R147, R148: after the last line of a label, with E > 0, it is carried out: in PEEL mode on to its present position, in TEAR mode
too with no band waiting, and else towards the usable edge of the next label, or REGISTERING for one. R143, R144: a later line whose band is not FULL at the take position is an underrun: under PAUSE the motor stops, the engine is
PAUSED and the pause is counted; under REDO the label is spoiled and fed on unburned, and at the end of its last line it ends SPOILED with
its report, the ring is flushed and its redo entry comes first. R145, R113, R73: a cancelled label is fed on unburned, a VOID band of it at
the take position is taken as BURNING in its turn, and at the end of its last line it ends VOIDED with its report; no copy counts as
completed, and with no other label of the job in flight the job leaves the queue. A label both spoiled and cancelled ends VOIDED and the
ring is flushed all the same (R144); that it makes no redo entry is the model's reading (log 28). All this holds of a step that takes a
reading and of one that takes none, where the gap length the step leaves is within the gap limit. -/
def Obligations.BurningBeginsAtTheChosenStart : Prop :=
  (∀ (s : State) (gap : Bool) (l : Line) (start edge : Int) (r : BandRecord) (j : Job) (f : Form) (h : HeadProfile) (rs : RunSettings),
      s.held = false → s.engine.mode = .burning → s.engine.line = some l → l.burn = none → s.engine.task = .approach start edge →
      start = s.engine.hp + 1 → s.engine.heads = [] → s.profile = some h → s.settings = some rs →
      (({ s.engine with hp := s.engine.hp + 1 } : Engine).read h.sensor rs.nOn rs.nOff gap).gapLength ≤ rs.gapLimit →
      s.takeFull? = some r → r.first = 0 → 0 < r.count → r.void = false → s.burning? = none →
      s.job? r.job = some j → j.cancelled = false → s.activeForm j.form = some f →
      ∃ (t : State) (m : Line), exec (.forwardStep gap) s = .next t ∧ t.engine.mode = .burning ∧
        t.engine.heads = [{ job := r.job, copy := r.copy, start := start, length := f.length, edge := some edge, done := 0, out := false,
                            spoiled := false }] ∧
        (t.buffer s.ring.take).state = .burning ∧ t.ring.take = s.ring.take + 1 ∧ (∀ i, i ≠ s.ring.take → t.buffer i = s.buffer i) ∧
        t = { s with ring := t.ring, engine := t.engine } ∧ t.engine.line = some m ∧
        ∃ bits, bits = ((s.buffer s.ring.take).cells.getD 0 []).map (Cell.burns f.printPlanes) ∧
          m.burn = some { bits := bits, times := classTimes rs s.engine.temperature s.engine.voltage } ∧
          m.phases = phasePlan h rs (classTimes rs s.engine.temperature s.engine.voltage)
            (classOf (List.replicate h.dots false) s.engine.history1) 0 bits ∧
          m.required = requiredPeriod m.phases) ∧
  (∀ (s : State) (gap : Bool) (l : Line) (b : HeadLabel) (h : HeadProfile) (rs : RunSettings), s.held = false → s.engine.mode = .burning →
    s.engine.line = some l → s.engine.task = .lines → s.engine.heads = [b] → b.out = false → s.profile = some h → s.settings = some rs →
    (({ s.engine with hp := s.engine.hp + 1 } : Engine).read h.sensor rs.nOn rs.nOff gap).gapLength ≤ rs.gapLimit →
    s.engine.faults = .none →
    let read := ({ s.engine with hp := s.engine.hp + 1 } : Engine).read h.sensor rs.nOn rs.nOff gap
    let handed := fun t : State => (l.burn = none → t.ports = s.ports) ∧
      (l.burn ≠ none → ∀ p,
        ((s.port p).watch = some ⟨b.job, b.copy, b.done⟩ →
          (t.port p).watch = none ∧ Event.positionReached.isIn (t.port p).pending = true) ∧
        ((s.port p).watch ≠ some ⟨b.job, b.copy, b.done⟩ → t.port p = s.port p))
    let burns := fun (t : State) (bits : List Bool) => t.engine.mode = .burning ∧ t.engine.task = .lines ∧
      t.engine.heads = [{ b with done := b.done + 1 }] ∧ t.engine.hp = s.engine.hp + 1 ∧
      let times := classTimes rs s.engine.temperature s.engine.voltage
      ∃ m : Line, t.engine.line = some m ∧ m.burn = some { bits := bits, times := times } ∧
        m.phases = phasePlan h rs times
          (classOf (l.burn.elim (List.replicate h.dots false) Burn.bits) s.engine.history1) (b.done + 1) bits ∧
        m.required = requiredPeriod m.phases ∧
        m.period = max m.required (max (minimumPeriod rs.speed s.engine.hot) (rampFloor (some l.period)))
    (∀ (i : Fin 8) (r : BandRecord) (j : Job) (f : Form), s.job? b.job = some j → j.cancelled = false → s.activeForm j.form = some f →
      b.spoiled = false → b.done + 1 < b.length → (s.buffer i).state = .burning → (∀ k, k ≠ i → (s.buffer k).state ≠ .burning) →
      (s.buffer i).record = some r → r.job = b.job → r.copy = b.copy → r.first ≤ b.done + 1 →
      (b.done + 1 < r.first + r.count → ∃ t : State, exec (.forwardStep gap) s = .next t ∧ handed t ∧
        burns t (((s.buffer i).cells.getD (b.done + 1 - r.first) []).map (Cell.burns f.printPlanes)) ∧
        t = { s with engine := t.engine, ports := t.ports }) ∧
      (∀ x, r.first + r.count = b.done + 1 → s.takeFull? = some x → x.job = b.job → x.copy = b.copy → x.first ≤ b.done + 1 →
        b.done + 1 < x.first + x.count → ∃ t : State, exec (.forwardStep gap) s = .next t ∧ handed t ∧
        burns t (((s.buffer s.ring.take).cells.getD (b.done + 1 - x.first) []).map (Cell.burns f.printPlanes)) ∧
        t.buffer i = Buffer.empty ∧ (t.buffer s.ring.take).state = .burning ∧ (t.buffer s.ring.take).record = some x ∧
        t.ring.take = s.ring.take + 1 ∧ (∀ k, k ≠ i → k ≠ s.ring.take → t.buffer k = s.buffer k) ∧
        t = { s with engine := t.engine, ring := t.ring, ports := t.ports })) ∧
    (s.isCancelled b.job = false → b.spoiled = false → b.done + 1 = b.length → 0 < h.peel →
      s.engine.hp + 1 < b.start + b.length + h.peel →
      let carries := fun t : State => handed t ∧ t.engine.heads = [{ b with done := b.done + 1, out := true }] ∧
        t.engine.hp = s.engine.hp + 1 ∧ (∃ m, t.engine.line = some m ∧ m.burn = none) ∧
        (∀ i r, s.burning? = some i → (s.buffer i).record = some r → r.first + r.count = b.length → t.buffer i = Buffer.empty) ∧
        t = { s with engine := t.engine, ring := t.ring, ports := t.ports }
      (rs.present = .peel ∨ s.takeFull? = none → ∃ t : State, exec (.forwardStep gap) s = .next t ∧ carries t ∧ t.engine.mode = .burning ∧
        t.engine.task = .carry (b.start + b.length + h.peel)) ∧
      (∀ x, rs.present = .tear → s.takeFull? = some x → x.band = 0 → x.void = false →
        let usable := if read.registered then read.edges.find? (fun y => decide (read.hp ≤ y.pos + rs.topOffset)) else none
        (∀ y, usable = some y → read.hp < y.pos + rs.topOffset → ∃ t : State, exec (.forwardStep gap) s = .next t ∧ carries t ∧
          t.engine.mode = .burning ∧ t.engine.task = .approach (y.pos + rs.topOffset) y.pos) ∧
        (usable = none → ∃ t : State, exec (.forwardStep gap) s = .next t ∧ carries t ∧ t.engine.mode = .registering ∧
          t.engine.task = .seek ∧ t.engine.feedCount = 0))) ∧
    (∀ (i : Fin 8) (r : BandRecord), s.isCancelled b.job = false → b.spoiled = false → b.done + 1 < b.length →
      (s.buffer i).state = .burning → (∀ k, k ≠ i → (s.buffer k).state ≠ .burning) → (s.buffer i).record = some r →
      r.first + r.count = b.done + 1 → s.takeHas b.job b.copy (b.done + 1) = false →
      (rs.underrun = .pause → ∃ t : State, exec (.forwardStep gap) s = .next t ∧ t.engine.mode = .paused ∧ t.engine.line = none ∧
        t.engine.prevPeriod = none ∧ (∀ x ∈ t.engine.history1 ++ t.engine.history2, x = false) ∧
        t.engine.heads = [{ b with done := b.done + 1 }] ∧ t.buffer i = Buffer.empty ∧ t.ring.take = s.ring.take ∧
        t.labels = s.labels.map (fun x =>
          if x.job = b.job ∧ x.copy = b.copy then { x with pauses := min 255 (x.pauses + 1) } else x) ∧
        t = { s with engine := t.engine, ring := t.ring, labels := t.labels, ports := t.ports }) ∧
      (rs.underrun = .redo → ∃ (t : State) (m : Line), exec (.forwardStep gap) s = .next t ∧ t.engine.mode = .burning ∧
        t.engine.line = some m ∧ m.burn = none ∧ t.engine.heads = [{ b with done := b.done + 1, spoiled := true }] ∧
        t.buffer i = Buffer.empty ∧ t.ring.take = s.ring.take ∧
        t = { s with engine := t.engine, ring := t.ring, ports := t.ports })) ∧
    (∀ (j : Job) (lr : LabelRecord), s.isCancelled b.job = false → b.spoiled = true → b.done + 1 = b.length → s.job? b.job = some j →
      s.label? b.job b.copy = some lr →
      ∃ (t : State) (c : Completion), exec (.forwardStep gap) s = .next t ∧ t.engine.mode = .stopped ∧ t.engine.heads = [] ∧
        t.ring = Ring.empty ∧ t.hand = none ∧
        t.redo.head? = some { job := b.job, copy := b.copy, values := lr.values } ∧ s.redo <:+ t.redo ∧
        (t.port j.origin).reports.getLast? = some (.completion c) ∧ c.job = j.number ∧ c.copy = lr.copy ∧ c.outcome = .spoiled ∧
        c.values = lr.values ∧ c.pauses = lr.pauses) ∧
    (∀ (j : Job) (lr : LabelRecord), s.job? b.job = some j → j.cancelled = true → b.spoiled = true → b.done + 1 = b.length →
      s.label? b.job b.copy = some lr →
      ∃ (t : State) (c : Completion), exec (.forwardStep gap) s = .next t ∧ t.engine.mode = .stopped ∧ t.engine.heads = [] ∧
        t.ring = Ring.empty ∧ t.hand = none ∧ s.redo <:+ t.redo ∧ (∀ x ∈ t.redo, x.job = b.job → x ∈ s.redo) ∧
        (t.port j.origin).reports.getLast? = some (.completion c) ∧ c.job = j.number ∧ c.copy = lr.copy ∧ c.outcome = .voided ∧
        c.values = lr.values ∧ c.pauses = lr.pauses) ∧
    (s.isCancelled b.job = true → b.spoiled = false → b.done + 1 < b.length →
      ∃ (t : State) (m : Line), exec (.forwardStep gap) s = .next t ∧ t.engine.mode = .burning ∧ t.engine.line = some m ∧ m.burn = none ∧
        t.engine.heads = [{ b with done := b.done + 1 }] ∧ t = { s with engine := t.engine, ring := t.ring, ports := t.ports } ∧
        (∀ r, s.takeFull? = some r → r.job = b.job → r.copy = b.copy → r.first ≤ b.done + 1 → b.done + 1 < r.first + r.count →
          (∀ i x, (s.buffer i).state = .burning → (s.buffer i).record = some x → x.first + x.count = b.done + 1) →
          (t.buffer s.ring.take).state = .burning ∧ t.ring.take = s.ring.take + 1)) ∧
    (∀ (j : Job) (lr : LabelRecord), s.job? b.job = some j → j.cancelled = true → b.spoiled = false → b.done + 1 = b.length →
      s.label? b.job b.copy = some lr →
      ∃ (t : State) (c : Completion), exec (.forwardStep gap) s = .next t ∧ t.label? b.job b.copy = none ∧
        (t.port j.origin).reports.getLast? = some (.completion c) ∧ c.job = j.number ∧ c.copy = lr.copy ∧ c.outcome = .voided ∧
        c.values = lr.values ∧ c.pauses = lr.pauses ∧
        (∀ k, t.job? b.job = some k → k.completed = j.completed) ∧
        ((∀ x ∈ s.labels, x.job = b.job → x.copy = b.copy) → (∀ x ∈ s.redo, x.job ≠ b.job) → t.job? b.job = none) ∧
        ((∀ i, (s.buffer i).state = .free) → t.engine.mode = .stopped ∧ t.engine.heads = [] ∧ t.engine.line = none)))

/-- R127 to R129: the phase plan fires every burning dot of the head's groups exactly once: in firing order the phases' dots are a
rearrangement of the burning dots, no phase holds more than P, none is empty, each is of its own group with its dots ascending, and none
ends before the class time of one of its dots. The groups fire from the line index mod G on, each next one mod G under SEQUENTIAL, XOR k
under INTERLEAVED; a group's phases follow one another in dot order, and all of them but the last hold P dots. -/
def Obligations.PhasePlanFiresEveryDotOnce : Prop :=
  ∀ (h : HeadProfile) (r : RunSettings) (times : ClassTimes) (cls : Nat → DotClass) (y : Nat) (bits : List Bool),
    h.inRange = true → 1 ≤ r.budget → bits.length = h.dots →
    let plan := phasePlan h r times cls y bits
    (plan.flatMap Phase.dots).Perm (burningDots bits) ∧
    (∀ ph ∈ plan, ph.dots ≠ [] ∧ ph.dots.length ≤ r.budget ∧ ph.group < h.groups ∧
      (∀ x ∈ ph.dots, x / (h.dots / h.groups) = ph.group) ∧ ph.dots.Pairwise (· < ·) ∧
      (times.d ≤ times.c → times.c ≤ times.b → times.b ≤ times.a → ∀ x ∈ ph.dots, times.of (cls x) ≤ ph.time)) ∧
    let turn := fun k => match r.fireOrder with
      | .sequential => (y % h.groups + k) % h.groups
      | .interleaved => (y % h.groups) ^^^ k
    plan.Pairwise fun a b =>
      (a.group = b.group ∧ a.dots.length = r.budget ∧ ∀ x ∈ a.dots, ∀ z ∈ b.dots, x < z) ∨
      ∃ i j, i < j ∧ j < h.groups ∧ a.group = turn i ∧ b.group = turn j

/-- R121 to R124: the class times lie in 100..1,800 and never increase from A to D when the weights do not; the base time is 300 plus 25 for
each step of darkness; at 25 degrees and 24.0 V class A lasts the base time. At every reading: the base time is taken by the temperature
factor, 1,024 at 25 degrees and 8 less for each degree more, clamped, then by the voltage factor, which falls as the square of the clamped
voltage, then by the weight of the class, each stage rounded before the next. -/
def Obligations.ClassTimesFallFromAToD : Prop :=
  (∀ (r : RunSettings) (t : Int) (v : Nat), r.weightB ≤ 1024 → r.weightC ≤ r.weightB → r.weightD ≤ r.weightC →
    let c := classTimes r t v
    100 ≤ c.d ∧ c.d ≤ c.c ∧ c.c ≤ c.b ∧ c.b ≤ c.a ∧ c.a ≤ 1800 ∧
    (t = 25 → v = 240 → r.darkness ≤ 31 → c.a = 300 + 25 * r.darkness)) ∧
  (∀ (r : RunSettings) (t : Int) (v temperature voltage t1 t2 : Nat),
    let rounds := fun a b m : Nat => 2 * b * m ≤ 2 * a + b ∧ 2 * a + b < 2 * b * (m + 1)
    temperature = max (768 : Int) (min 1280 (1024 + (25 - t) * 8)) → rounds 58982400 ((max 200 (min 280 v)) ^ 2) voltage →
    rounds ((300 + 25 * r.darkness) * temperature) 1024 t1 → rounds (t1 * voltage) 1024 t2 →
    let lasts := fun time weight : Nat => ∃ m, rounds (t2 * weight) 1024 m ∧ time = max 100 (min 1800 m)
    let c := classTimes r t v
    lasts c.a 1024 ∧ lasts c.b r.weightB ∧ lasts c.c r.weightC ∧ lasts c.d r.weightD)

/-- R129: within a burned line: the end of a phase disables every dot and a gap follows unless it was the last; the end of a gap fires the
next phase with its dots enabled; the end of a dot's class time disables that dot alone. -/
def Obligations.StrobesFollowThePlan : Prop :=
  ∀ (s : State) (l : Line), s.held = false → s.engine.line = some l →
    (∀ ph rest, l.strobe = .on → l.phases = ph :: rest →
      exec .strobePhaseEnd s = .next { s with engine := { s.engine with
        line := some { l with phases := rest, enabled := [], strobe := if rest = [] then .off else .gap } } }) ∧
    (∀ ph rest, l.strobe = .gap → l.phases = ph :: rest →
      exec .phaseGapEnd s = .next { s with engine := { s.engine with line := some { l with strobe := .on, enabled := ph.dots } } }) ∧
    (∀ dot, ∃ en, exec (.dotClassTimeEnd dot) s = .next { s with engine := { s.engine with line := some { l with enabled := en } } } ∧
      ∀ x, x ∈ en ↔ x ∈ l.enabled ∧ x ≠ dot)

/-- R148, R149: in PEEL mode each absent sample in PRESENTING counts one and a present one starts the count afresh; at the eighth (the model
takes LABEL-TAKEN at a count of 7 or 8, log 15) the presented label ends PRINTED with its report and a retract of E lines begins; each
back-feed step takes one from HP at a falling period. R147, R154: in TEAR mode the step that brings HP to the present position of the one
label being carried out ends it PRINTED with its report, the length-mismatch flag set when its measured length and L differ by more than
the length tolerance, and with no band in the ring the engine stops there in PRESENTING; the gap length the step leaves is within the gap
limit. The edge record the flag is judged by is the one the step's own reading leaves (log 17). R146, R148, R149: with E = 0 in PEEL mode
the step that ends the last line of a label burned whole presents it at once, and its taking makes no retract: with no band in the ring
the engine is STOPPED. -/
def Obligations.PresentedLabelIsTaken : Prop :=
  (∀ (s : State) (absent : Bool), s.held = false → s.engine.mode = .presenting → s.peels = true → s.engine.absent < 8 →
    exec (.takenSensorSample absent) s =
      .next { s with engine := { s.engine with absent := if absent then s.engine.absent + 1 else 0 } }) ∧
  (∀ (s : State) (h : HeadLabel) (j : Job) (l : LabelRecord), s.held = false → s.engine.mode = .presenting → s.peels = true →
    7 ≤ s.engine.absent → s.engine.heads = [h] → h.out = true → s.job? h.job = some j → s.label? h.job h.copy = some l →
    0 < s.profile.elim 0 HeadProfile.peel →
    (∀ k ∈ s.queue, k.number = h.job → k = j) →
    ∃ (t : State) (c : Completion), exec .labelTaken s = .next t ∧ t.engine.mode = .retracting ∧ t.engine.heads = [] ∧
      t.engine.backLeft = s.profile.elim 0 HeadProfile.peel ∧ t.engine.backPeriod = 8000 ∧ t.engine.hp = s.engine.hp ∧
      (t.port j.origin).reports.getLast? = some (.completion c) ∧ c.job = j.number ∧ c.copy = h.copy ∧ c.outcome = .printed ∧
      c.values = l.values ∧ c.pauses = l.pauses ∧
      (j.completed + 1 = j.total → t.job? h.job = none) ∧
      (j.completed + 1 < j.total → j.cancelled = false → t.job? h.job = some { j with completed := j.completed + 1 }) ∧
      t = { s with engine := t.engine, ports := t.ports, queue := t.queue, labels := t.labels }) ∧
  (∀ s : State, s.held = false → s.engine.mode = .retracting → 2 ≤ s.engine.backLeft →
    exec .backFeedStep s = .next { s with engine := { s.engine with
      hp := s.engine.hp - 1, backLeft := s.engine.backLeft - 1, backPeriod := max 2500 ((7 * s.engine.backPeriod + 7) / 8) } }) ∧
  (∀ s : State, s.held = false → s.engine.mode = .retracting → s.engine.backLeft = 1 →
    ∃ t : State, exec .backFeedStep s = .next t ∧ t.engine.hp = s.engine.hp - 1 ∧ t.engine.mode ≠ .retracting ∧
      ((∀ i, (s.buffer i).state = .free) → s.engine.heads = [] → t.engine.mode = .stopped) ∧
      t = { s with engine := t.engine, ring := t.ring, ports := t.ports, queue := t.queue, labels := t.labels }) ∧
  (∀ (s : State) (gap : Bool) (l : Line) (b : HeadLabel) (j : Job) (lr : LabelRecord) (h : HeadProfile) (rs : RunSettings),
    s.held = false → s.engine.mode = .burning → s.engine.line = some l → s.engine.task = .carry (s.engine.hp + 1) →
    s.engine.heads = [b] → b.out = true → s.presentPosition b = s.engine.hp + 1 → s.profile = some h → s.settings = some rs →
    rs.present = .tear → s.engine.faults = .none →
    (∀ i, (s.buffer i).state = .free) → s.job? b.job = some j → s.label? b.job b.copy = some lr →
    let read := ({ s.engine with hp := s.engine.hp + 1 } : Engine).read h.sensor rs.nOn rs.nOff gap
    read.gapLength ≤ rs.gapLimit →
    ∃ (t : State) (c : Completion), exec (.forwardStep gap) s = .next t ∧ t.engine.mode = .presenting ∧ t.engine.heads = [] ∧
      t.engine.hp = s.engine.hp + 1 ∧ t.engine.line = none ∧
      (t.port j.origin).reports.getLast? = some (.completion c) ∧ c.job = j.number ∧ c.copy = lr.copy ∧ c.outcome = .printed ∧
      c.values = lr.values ∧ c.pauses = lr.pauses ∧
      (c.mismatch = true ↔ ∃ (x : Edge) (n : Int), b.edge = some x.pos ∧
        read.edges.find? (fun y => y.pos == x.pos) = some x ∧ x.length = some n ∧ rs.tolerance < (n - (b.length : Int)).natAbs) ∧
      t = { s with engine := t.engine, ports := t.ports, queue := t.queue, labels := t.labels }) ∧
  (∀ (s : State) (gap : Bool) (l : Line) (b : HeadLabel) (h : HeadProfile) (rs : RunSettings), s.held = false → s.engine.mode = .burning →
    s.engine.line = some l → s.engine.task = .lines → s.engine.heads = [b] → b.out = false → b.spoiled = false →
    s.isCancelled b.job = false → b.done + 1 = b.length → s.profile = some h → h.peel = 0 → s.settings = some rs → rs.present = .peel →
    s.engine.faults = .none → (({ s.engine with hp := s.engine.hp + 1 } : Engine).read h.sensor rs.nOn rs.nOff gap).gapLength ≤ rs.gapLimit →
    ∃ t : State, exec (.forwardStep gap) s = .next t ∧ t.engine.mode = .presenting ∧ t.engine.line = none ∧ t.engine.absent = 0 ∧
      t.engine.heads = [{ b with done := b.done + 1, out := true }] ∧ t.engine.hp = s.engine.hp + 1 ∧
      t = { s with engine := t.engine, ring := t.ring, ports := t.ports }) ∧
  (∀ (s : State) (h : HeadLabel) (j : Job) (l : LabelRecord), s.held = false → s.engine.mode = .presenting → s.peels = true →
    7 ≤ s.engine.absent → s.engine.heads = [h] → h.out = true → s.job? h.job = some j → s.label? h.job h.copy = some l →
    s.profile.elim 0 HeadProfile.peel = 0 → (∀ i, (s.buffer i).state = .free) →
    ∃ (t : State) (c : Completion), exec .labelTaken s = .next t ∧ t.engine.mode = .stopped ∧ t.engine.heads = [] ∧
      t.engine.hp = s.engine.hp ∧ (t.port j.origin).reports.getLast? = some (.completion c) ∧ c.job = j.number ∧ c.copy = h.copy ∧
      c.outcome = .printed ∧ t = { s with engine := t.engine, ports := t.ports, queue := t.queue, labels := t.labels })

/-- R156 to R158, R182: in DRY a consumed line that is not its band's last moves to the next, and is handed to the watches; the last one
makes the band report on the origin port's list, and on no other, and frees the buffer; on a label's last band the label then ends DRY, its
report behind the band report on that list and on the list of every other port whose watch wants it, and the copy counts as completed; with no FULL band behind, the take position then stands after the band consumed, moved there at the taking or
now, as the part does it (log 19). R159: when the job is cancelled the line in hand is the last consumed: it is handed to the watches, the
buffer is freed without a band report, and the label ends VOIDED with the one report; no copy counts as completed. -/
def Obligations.DryRunConsumesLines : Prop :=
  (∀ (s : State) (k : Nat) (i : Fin 8) (r : BandRecord) (j : Job), s.held = false → s.engine.mode = .dry → s.engine.dryLine = some k →
    s.burning? = some i → (s.buffer i).record = some r → s.job? r.job = some j → j.cancelled = false →
    (∀ m ∈ s.queue, m.number = r.job → m = j) →
    let after := if Config.dryMovesAtTaking then s.ring.take else s.ring.take + 1
    (k + 1 < r.count → ∃ t : State, exec .dryLineConsumed s = .next t ∧ t.engine = { s.engine with dryLine := some (k + 1) } ∧
      (∀ p, ((s.port p).watch = some ⟨r.job, r.copy, r.first + k⟩ →
          (t.port p).watch = none ∧ Event.positionReached.isIn (t.port p).pending = true) ∧
        ((s.port p).watch ≠ some ⟨r.job, r.copy, r.first + k⟩ → t.port p = s.port p)) ∧
      t = { s with engine := t.engine, ports := t.ports }) ∧
    (k + 1 = r.count → s.engine.leavingDry = false → ∃ t : State, exec .dryLineConsumed s = .next t ∧ t.engine.mode = .dry ∧
      t = { s with engine := t.engine, ring := t.ring, ports := t.ports, queue := t.queue, labels := t.labels } ∧
      ((s.buffer after).state ≠ .full → t.ring.take = after) ∧
      let report : Report := .band {
        job := j.number, copy := r.copy, band := r.band, check := r.check,
        burned := burnedDots ((s.activeForm j.form).elim 0#4 Form.printPlanes) r.count (s.buffer i).cells }
      let listed := fun (p : Port) (new : List Report) => s.reportsBounded →
        let all := (s.port p).reports ++ new
        (t.port p).reports = all.drop (all.length - 12)
      (r.last = false → t.buffer i = Buffer.empty ∧ (t.port j.origin).reports.getLast? = some report ∧
        ∀ p, listed p (if p = j.origin then [report] else [])) ∧
      (∀ l, r.last = true → s.label? r.job r.copy = some l → t.buffer i = Buffer.empty ∧
        (∃ c : Completion, (t.port j.origin).reports.getLast? = some (.completion c) ∧ c.job = j.number ∧ c.copy = r.copy ∧ c.outcome = .dry ∧
          c.values = l.values ∧ c.pauses = l.pauses ∧ c.mismatch = false ∧
          ∀ p, listed p (if p = j.origin then [report, .completion c] else if (s.port p).settings.wants j.key then [.completion c] else [])) ∧
        (j.completed + 1 = j.total → t.job? r.job = none) ∧
        (j.completed + 1 < j.total → t.job? r.job = some { j with completed := j.completed + 1 })))) ∧
  (∀ (s : State) (k : Nat) (i : Fin 8) (r : BandRecord) (j : Job) (l : LabelRecord), s.held = false → s.engine.mode = .dry →
    s.engine.dryLine = some k → s.engine.leavingDry = false → s.burning? = some i → (s.buffer i).record = some r →
    s.job? r.job = some j → j.cancelled = true → s.label? r.job r.copy = some l →
    let after := if Config.dryMovesAtTaking then s.ring.take else s.ring.take + 1
    ∃ (t : State) (c : Completion), exec .dryLineConsumed s = .next t ∧ t.engine.mode = .dry ∧ t.buffer i = Buffer.empty ∧
      t.label? r.job r.copy = none ∧ c.job = j.number ∧ c.origin = j.origin ∧ c.key = j.key ∧ c.copy = r.copy ∧ c.outcome = .voided ∧
      c.values = l.values ∧ c.pauses = l.pauses ∧
      (∀ p, (t.port p).reports = ((s.placeCompletion c).port p).reports) ∧
      (∀ p, (s.port p).watch = some ⟨r.job, r.copy, r.first + k⟩ → Event.positionReached.isIn (t.port p).pending = true) ∧
      (∀ q, t.job? r.job = some q → q.completed = j.completed) ∧
      ((∀ x ∈ s.labels, x.job = r.job → x.copy = r.copy) → (∀ x ∈ s.redo, x.job ≠ r.job) → t.job? r.job = none) ∧
      ((s.buffer after).state ≠ .full → t.engine.dryLine = none ∧ t.ring.take = after) ∧
      t = { s with engine := t.engine, ring := t.ring, ports := t.ports, queue := t.queue, labels := t.labels })

/-! ### Invariants -/

/-- R39, R54, R83, R99, R116, R139, R179: the capacities hold at every step: 12 reports a port, 16 jobs, 24 pool entries, 32 edges, 8 labels
in flight, the redo list among them; and every counter, live or retained, stays within its limits. R5, R60: the form pools hold no more
than their capacities, where the retained image follows the forms; and the value store, where no two jobs share a number, no job keeps two
values for a field, no two pool entries are for the same, no pool entry has a queued job's key and no form has two fields of a number,
which every step keeps. That a rewrite cut by the reset input leaves every retained counter and form whole is the model's choice (log 3). -/
def Obligations.CapacitiesAreKept : Prop :=
  ∀ s t : State, step s = .next t →
    (s.reportsBounded → t.reportsBounded) ∧ (s.queueBounded → t.queueBounded) ∧ (s.poolBounded → t.poolBounded) ∧
    (s.edgesBounded → t.edgesBounded) ∧ (s.countersInLimits → t.countersInLimits) ∧ (s.labelsBounded → t.labelsBounded) ∧
    (s.imageFollows → s.formPoolsBounded → t.formPoolsBounded) ∧ (s.namesDistinct → t.namesDistinct) ∧
    (s.namesDistinct → s.valuesBounded → t.valuesBounded)

/-- R50 to R53: at every step the retained image holds under COUNTERS no form, and under COUNTERS-AND-FORMS no form but those of the slots;
while the part runs its counters are the counters and its forms the ACTIVE ones; and its check word agrees. A step in which the reset input
cuts a rewrite keeps the first two, and may leave the check word at odds with the image; that each part of the image is written as one is
the model's choice (log 3). -/
def Obligations.RetainedImageFollows : Prop :=
  ∀ s t : State, step s = .next t →
    (s.imageFollows → t.imageFollows) ∧
    (s.retained.sound = true → (∀ rest, s.pending ≠ .deviceResetAssert true :: rest) → t.retained.sound = true)

/-- R165, R167, R186: at every step each receive buffer holds at most 2,048 bytes, and CTS is right for it. -/
def Obligations.BuffersAndCtsAreKept : Prop :=
  ∀ s t : State, step s = .next t → s.buffersSound → s.ctsRight → t.buffersSound ∧ t.ctsRight

/-- R130, R134 to R136, R151, R152: the engine stays sound at every step: its task fits its state, a line is in progress only while the
motor moves forward, no fault stands outside FAULT but in UNSET and DRY, and so dots are heated only while BURNING with no fault. -/
def Obligations.EngineStaysSound : Prop :=
  (∀ s t : State, step s = .next t → s.engine.sound → t.engine.sound) ∧
  (∀ e : Engine, e.sound → e.heats = true → e.mode = .burning ∧ e.faults = .none)

/-- R186, R114, R150: the state right after reset (which power-up it is: log 5) has every invariant, and its ring, composer, queue, pool
and lists are empty. -/
def Obligations.ResetIsSound : Prop :=
  State.reset.reportsBounded ∧ State.reset.queueBounded ∧ State.reset.poolBounded ∧ State.reset.edgesBounded ∧
    State.reset.countersInLimits ∧ State.reset.labelsBounded ∧ State.reset.formPoolsBounded ∧ State.reset.namesDistinct ∧
    State.reset.valuesBounded ∧ State.reset.imageFollows ∧ State.reset.retained.sound = true ∧ State.reset.buffersSound ∧
    State.reset.ctsRight ∧ State.reset.engine.sound ∧ State.reset.queue = [] ∧ State.reset.redo = [] ∧ State.reset.pool = [] ∧
    State.reset.nextJob = 1 ∧ State.reset.ring = Ring.empty ∧ State.reset.hand = none ∧ State.reset.engine.mode = .unset ∧
    State.reset.pending = []
end

