-- ==== Sys2Proof/Laws/State.lean ====
section
/-! SUPPORT. What each named update of State, of the engine and of a port leaves as it was: one lemma per field, true by rfl, and what
reading a port or a buffer after an update gives. -/

namespace Sys2Proof.Machine

/-! ### Updates of State -/

@[simp] theorem onPort_pending (s : State) (p : Port) (f : PortState → PortState) : (s.onPort p f).pending = s.pending := rfl
@[simp] theorem onPort_held (s : State) (p : Port) (f : PortState → PortState) : (s.onPort p f).held = s.held := rfl
@[simp] theorem onPort_slots (s : State) (p : Port) (f : PortState → PortState) : (s.onPort p f).slots = s.slots := rfl
@[simp] theorem onPort_counters (s : State) (p : Port) (f : PortState → PortState) : (s.onPort p f).counters = s.counters := rfl
@[simp] theorem onPort_retained (s : State) (p : Port) (f : PortState → PortState) : (s.onPort p f).retained = s.retained := rfl
@[simp] theorem onPort_retainedLost (s : State) (p : Port) (f : PortState → PortState) : (s.onPort p f).retainedLost = s.retainedLost := rfl
@[simp] theorem onPort_queue (s : State) (p : Port) (f : PortState → PortState) : (s.onPort p f).queue = s.queue := rfl
@[simp] theorem onPort_nextJob (s : State) (p : Port) (f : PortState → PortState) : (s.onPort p f).nextJob = s.nextJob := rfl
@[simp] theorem onPort_redo (s : State) (p : Port) (f : PortState → PortState) : (s.onPort p f).redo = s.redo := rfl
@[simp] theorem onPort_pool (s : State) (p : Port) (f : PortState → PortState) : (s.onPort p f).pool = s.pool := rfl
@[simp] theorem onPort_ring (s : State) (p : Port) (f : PortState → PortState) : (s.onPort p f).ring = s.ring := rfl
@[simp] theorem onPort_hand (s : State) (p : Port) (f : PortState → PortState) : (s.onPort p f).hand = s.hand := rfl
@[simp] theorem onPort_labels (s : State) (p : Port) (f : PortState → PortState) : (s.onPort p f).labels = s.labels := rfl
@[simp] theorem onPort_profile (s : State) (p : Port) (f : PortState → PortState) : (s.onPort p f).profile = s.profile := rfl
@[simp] theorem onPort_settings (s : State) (p : Port) (f : PortState → PortState) : (s.onPort p f).settings = s.settings := rfl
@[simp] theorem onPort_engine (s : State) (p : Port) (f : PortState → PortState) : (s.onPort p f).engine = s.engine := rfl
@[simp] theorem onPort_freeTick (s : State) (p : Port) (f : PortState → PortState) : (s.onPort p f).freeTick = s.freeTick := rfl

@[simp] theorem onEngine_pending (s : State) (f : Engine → Engine) : (s.onEngine f).pending = s.pending := rfl
@[simp] theorem onEngine_held (s : State) (f : Engine → Engine) : (s.onEngine f).held = s.held := rfl
@[simp] theorem onEngine_ports (s : State) (f : Engine → Engine) : (s.onEngine f).ports = s.ports := rfl
@[simp] theorem onEngine_slots (s : State) (f : Engine → Engine) : (s.onEngine f).slots = s.slots := rfl
@[simp] theorem onEngine_counters (s : State) (f : Engine → Engine) : (s.onEngine f).counters = s.counters := rfl
@[simp] theorem onEngine_retained (s : State) (f : Engine → Engine) : (s.onEngine f).retained = s.retained := rfl
@[simp] theorem onEngine_retainedLost (s : State) (f : Engine → Engine) : (s.onEngine f).retainedLost = s.retainedLost := rfl
@[simp] theorem onEngine_queue (s : State) (f : Engine → Engine) : (s.onEngine f).queue = s.queue := rfl
@[simp] theorem onEngine_nextJob (s : State) (f : Engine → Engine) : (s.onEngine f).nextJob = s.nextJob := rfl
@[simp] theorem onEngine_redo (s : State) (f : Engine → Engine) : (s.onEngine f).redo = s.redo := rfl
@[simp] theorem onEngine_pool (s : State) (f : Engine → Engine) : (s.onEngine f).pool = s.pool := rfl
@[simp] theorem onEngine_ring (s : State) (f : Engine → Engine) : (s.onEngine f).ring = s.ring := rfl
@[simp] theorem onEngine_hand (s : State) (f : Engine → Engine) : (s.onEngine f).hand = s.hand := rfl
@[simp] theorem onEngine_labels (s : State) (f : Engine → Engine) : (s.onEngine f).labels = s.labels := rfl
@[simp] theorem onEngine_profile (s : State) (f : Engine → Engine) : (s.onEngine f).profile = s.profile := rfl
@[simp] theorem onEngine_settings (s : State) (f : Engine → Engine) : (s.onEngine f).settings = s.settings := rfl
@[simp] theorem onEngine_freeTick (s : State) (f : Engine → Engine) : (s.onEngine f).freeTick = s.freeTick := rfl

@[simp] theorem onJob_pending (s : State) (n : Nat) (f : Job → Job) : (s.onJob n f).pending = s.pending := rfl
@[simp] theorem onJob_held (s : State) (n : Nat) (f : Job → Job) : (s.onJob n f).held = s.held := rfl
@[simp] theorem onJob_ports (s : State) (n : Nat) (f : Job → Job) : (s.onJob n f).ports = s.ports := rfl
@[simp] theorem onJob_slots (s : State) (n : Nat) (f : Job → Job) : (s.onJob n f).slots = s.slots := rfl
@[simp] theorem onJob_counters (s : State) (n : Nat) (f : Job → Job) : (s.onJob n f).counters = s.counters := rfl
@[simp] theorem onJob_retained (s : State) (n : Nat) (f : Job → Job) : (s.onJob n f).retained = s.retained := rfl
@[simp] theorem onJob_retainedLost (s : State) (n : Nat) (f : Job → Job) : (s.onJob n f).retainedLost = s.retainedLost := rfl
@[simp] theorem onJob_nextJob (s : State) (n : Nat) (f : Job → Job) : (s.onJob n f).nextJob = s.nextJob := rfl
@[simp] theorem onJob_redo (s : State) (n : Nat) (f : Job → Job) : (s.onJob n f).redo = s.redo := rfl
@[simp] theorem onJob_pool (s : State) (n : Nat) (f : Job → Job) : (s.onJob n f).pool = s.pool := rfl
@[simp] theorem onJob_ring (s : State) (n : Nat) (f : Job → Job) : (s.onJob n f).ring = s.ring := rfl
@[simp] theorem onJob_hand (s : State) (n : Nat) (f : Job → Job) : (s.onJob n f).hand = s.hand := rfl
@[simp] theorem onJob_labels (s : State) (n : Nat) (f : Job → Job) : (s.onJob n f).labels = s.labels := rfl
@[simp] theorem onJob_profile (s : State) (n : Nat) (f : Job → Job) : (s.onJob n f).profile = s.profile := rfl
@[simp] theorem onJob_settings (s : State) (n : Nat) (f : Job → Job) : (s.onJob n f).settings = s.settings := rfl
@[simp] theorem onJob_engine (s : State) (n : Nat) (f : Job → Job) : (s.onJob n f).engine = s.engine := rfl
@[simp] theorem onJob_freeTick (s : State) (n : Nat) (f : Job → Job) : (s.onJob n f).freeTick = s.freeTick := rfl

@[simp] theorem onBuffer_pending (s : State) (i : Fin 8) (f : Buffer → Buffer) : (s.onBuffer i f).pending = s.pending := rfl
@[simp] theorem onBuffer_held (s : State) (i : Fin 8) (f : Buffer → Buffer) : (s.onBuffer i f).held = s.held := rfl
@[simp] theorem onBuffer_ports (s : State) (i : Fin 8) (f : Buffer → Buffer) : (s.onBuffer i f).ports = s.ports := rfl
@[simp] theorem onBuffer_slots (s : State) (i : Fin 8) (f : Buffer → Buffer) : (s.onBuffer i f).slots = s.slots := rfl
@[simp] theorem onBuffer_counters (s : State) (i : Fin 8) (f : Buffer → Buffer) : (s.onBuffer i f).counters = s.counters := rfl
@[simp] theorem onBuffer_retained (s : State) (i : Fin 8) (f : Buffer → Buffer) : (s.onBuffer i f).retained = s.retained := rfl
@[simp] theorem onBuffer_retainedLost (s : State) (i : Fin 8) (f : Buffer → Buffer) : (s.onBuffer i f).retainedLost = s.retainedLost := rfl
@[simp] theorem onBuffer_queue (s : State) (i : Fin 8) (f : Buffer → Buffer) : (s.onBuffer i f).queue = s.queue := rfl
@[simp] theorem onBuffer_nextJob (s : State) (i : Fin 8) (f : Buffer → Buffer) : (s.onBuffer i f).nextJob = s.nextJob := rfl
@[simp] theorem onBuffer_redo (s : State) (i : Fin 8) (f : Buffer → Buffer) : (s.onBuffer i f).redo = s.redo := rfl
@[simp] theorem onBuffer_pool (s : State) (i : Fin 8) (f : Buffer → Buffer) : (s.onBuffer i f).pool = s.pool := rfl
@[simp] theorem onBuffer_hand (s : State) (i : Fin 8) (f : Buffer → Buffer) : (s.onBuffer i f).hand = s.hand := rfl
@[simp] theorem onBuffer_labels (s : State) (i : Fin 8) (f : Buffer → Buffer) : (s.onBuffer i f).labels = s.labels := rfl
@[simp] theorem onBuffer_profile (s : State) (i : Fin 8) (f : Buffer → Buffer) : (s.onBuffer i f).profile = s.profile := rfl
@[simp] theorem onBuffer_settings (s : State) (i : Fin 8) (f : Buffer → Buffer) : (s.onBuffer i f).settings = s.settings := rfl
@[simp] theorem onBuffer_engine (s : State) (i : Fin 8) (f : Buffer → Buffer) : (s.onBuffer i f).engine = s.engine := rfl
@[simp] theorem onBuffer_freeTick (s : State) (i : Fin 8) (f : Buffer → Buffer) : (s.onBuffer i f).freeTick = s.freeTick := rfl

@[simp] theorem advanceTake_pending (s : State) : (s.advanceTake).pending = s.pending := rfl
@[simp] theorem advanceTake_held (s : State) : (s.advanceTake).held = s.held := rfl
@[simp] theorem advanceTake_ports (s : State) : (s.advanceTake).ports = s.ports := rfl
@[simp] theorem advanceTake_slots (s : State) : (s.advanceTake).slots = s.slots := rfl
@[simp] theorem advanceTake_counters (s : State) : (s.advanceTake).counters = s.counters := rfl
@[simp] theorem advanceTake_retained (s : State) : (s.advanceTake).retained = s.retained := rfl
@[simp] theorem advanceTake_retainedLost (s : State) : (s.advanceTake).retainedLost = s.retainedLost := rfl
@[simp] theorem advanceTake_queue (s : State) : (s.advanceTake).queue = s.queue := rfl
@[simp] theorem advanceTake_nextJob (s : State) : (s.advanceTake).nextJob = s.nextJob := rfl
@[simp] theorem advanceTake_redo (s : State) : (s.advanceTake).redo = s.redo := rfl
@[simp] theorem advanceTake_pool (s : State) : (s.advanceTake).pool = s.pool := rfl
@[simp] theorem advanceTake_hand (s : State) : (s.advanceTake).hand = s.hand := rfl
@[simp] theorem advanceTake_labels (s : State) : (s.advanceTake).labels = s.labels := rfl
@[simp] theorem advanceTake_profile (s : State) : (s.advanceTake).profile = s.profile := rfl
@[simp] theorem advanceTake_settings (s : State) : (s.advanceTake).settings = s.settings := rfl
@[simp] theorem advanceTake_engine (s : State) : (s.advanceTake).engine = s.engine := rfl
@[simp] theorem advanceTake_freeTick (s : State) : (s.advanceTake).freeTick = s.freeTick := rfl

@[simp] theorem markBurning_pending (s : State) : (s.markBurning).pending = s.pending := rfl
@[simp] theorem markBurning_held (s : State) : (s.markBurning).held = s.held := rfl
@[simp] theorem markBurning_ports (s : State) : (s.markBurning).ports = s.ports := rfl
@[simp] theorem markBurning_slots (s : State) : (s.markBurning).slots = s.slots := rfl
@[simp] theorem markBurning_counters (s : State) : (s.markBurning).counters = s.counters := rfl
@[simp] theorem markBurning_retained (s : State) : (s.markBurning).retained = s.retained := rfl
@[simp] theorem markBurning_retainedLost (s : State) : (s.markBurning).retainedLost = s.retainedLost := rfl
@[simp] theorem markBurning_queue (s : State) : (s.markBurning).queue = s.queue := rfl
@[simp] theorem markBurning_nextJob (s : State) : (s.markBurning).nextJob = s.nextJob := rfl
@[simp] theorem markBurning_redo (s : State) : (s.markBurning).redo = s.redo := rfl
@[simp] theorem markBurning_pool (s : State) : (s.markBurning).pool = s.pool := rfl
@[simp] theorem markBurning_hand (s : State) : (s.markBurning).hand = s.hand := rfl
@[simp] theorem markBurning_labels (s : State) : (s.markBurning).labels = s.labels := rfl
@[simp] theorem markBurning_profile (s : State) : (s.markBurning).profile = s.profile := rfl
@[simp] theorem markBurning_settings (s : State) : (s.markBurning).settings = s.settings := rfl
@[simp] theorem markBurning_engine (s : State) : (s.markBurning).engine = s.engine := rfl
@[simp] theorem markBurning_freeTick (s : State) : (s.markBurning).freeTick = s.freeTick := rfl

@[simp] theorem advanceTakeIf_pending (s : State) (now : Bool) : (s.advanceTakeIf now).pending = s.pending := rfl
@[simp] theorem advanceTakeIf_held (s : State) (now : Bool) : (s.advanceTakeIf now).held = s.held := rfl
@[simp] theorem advanceTakeIf_ports (s : State) (now : Bool) : (s.advanceTakeIf now).ports = s.ports := rfl
@[simp] theorem advanceTakeIf_slots (s : State) (now : Bool) : (s.advanceTakeIf now).slots = s.slots := rfl
@[simp] theorem advanceTakeIf_counters (s : State) (now : Bool) : (s.advanceTakeIf now).counters = s.counters := rfl
@[simp] theorem advanceTakeIf_retained (s : State) (now : Bool) : (s.advanceTakeIf now).retained = s.retained := rfl
@[simp] theorem advanceTakeIf_retainedLost (s : State) (now : Bool) : (s.advanceTakeIf now).retainedLost = s.retainedLost := rfl
@[simp] theorem advanceTakeIf_queue (s : State) (now : Bool) : (s.advanceTakeIf now).queue = s.queue := rfl
@[simp] theorem advanceTakeIf_nextJob (s : State) (now : Bool) : (s.advanceTakeIf now).nextJob = s.nextJob := rfl
@[simp] theorem advanceTakeIf_redo (s : State) (now : Bool) : (s.advanceTakeIf now).redo = s.redo := rfl
@[simp] theorem advanceTakeIf_pool (s : State) (now : Bool) : (s.advanceTakeIf now).pool = s.pool := rfl
@[simp] theorem advanceTakeIf_hand (s : State) (now : Bool) : (s.advanceTakeIf now).hand = s.hand := rfl
@[simp] theorem advanceTakeIf_labels (s : State) (now : Bool) : (s.advanceTakeIf now).labels = s.labels := rfl
@[simp] theorem advanceTakeIf_profile (s : State) (now : Bool) : (s.advanceTakeIf now).profile = s.profile := rfl
@[simp] theorem advanceTakeIf_settings (s : State) (now : Bool) : (s.advanceTakeIf now).settings = s.settings := rfl
@[simp] theorem advanceTakeIf_engine (s : State) (now : Bool) : (s.advanceTakeIf now).engine = s.engine := rfl
@[simp] theorem advanceTakeIf_freeTick (s : State) (now : Bool) : (s.advanceTakeIf now).freeTick = s.freeTick := rfl

@[simp] theorem takeDryBand_pending (s : State) : (s.takeDryBand).pending = s.pending := rfl
@[simp] theorem takeDryBand_held (s : State) : (s.takeDryBand).held = s.held := rfl
@[simp] theorem takeDryBand_ports (s : State) : (s.takeDryBand).ports = s.ports := rfl
@[simp] theorem takeDryBand_slots (s : State) : (s.takeDryBand).slots = s.slots := rfl
@[simp] theorem takeDryBand_counters (s : State) : (s.takeDryBand).counters = s.counters := rfl
@[simp] theorem takeDryBand_retained (s : State) : (s.takeDryBand).retained = s.retained := rfl
@[simp] theorem takeDryBand_retainedLost (s : State) : (s.takeDryBand).retainedLost = s.retainedLost := rfl
@[simp] theorem takeDryBand_queue (s : State) : (s.takeDryBand).queue = s.queue := rfl
@[simp] theorem takeDryBand_nextJob (s : State) : (s.takeDryBand).nextJob = s.nextJob := rfl
@[simp] theorem takeDryBand_redo (s : State) : (s.takeDryBand).redo = s.redo := rfl
@[simp] theorem takeDryBand_pool (s : State) : (s.takeDryBand).pool = s.pool := rfl
@[simp] theorem takeDryBand_hand (s : State) : (s.takeDryBand).hand = s.hand := rfl
@[simp] theorem takeDryBand_labels (s : State) : (s.takeDryBand).labels = s.labels := rfl
@[simp] theorem takeDryBand_profile (s : State) : (s.takeDryBand).profile = s.profile := rfl
@[simp] theorem takeDryBand_settings (s : State) : (s.takeDryBand).settings = s.settings := rfl
@[simp] theorem takeDryBand_engine (s : State) : (s.takeDryBand).engine = s.engine := rfl
@[simp] theorem takeDryBand_freeTick (s : State) : (s.takeDryBand).freeTick = s.freeTick := rfl

@[simp] theorem freeDryBand_pending (s : State) (i : Fin 8) : (s.freeDryBand i).pending = s.pending := rfl
@[simp] theorem freeDryBand_held (s : State) (i : Fin 8) : (s.freeDryBand i).held = s.held := rfl
@[simp] theorem freeDryBand_ports (s : State) (i : Fin 8) : (s.freeDryBand i).ports = s.ports := rfl
@[simp] theorem freeDryBand_slots (s : State) (i : Fin 8) : (s.freeDryBand i).slots = s.slots := rfl
@[simp] theorem freeDryBand_counters (s : State) (i : Fin 8) : (s.freeDryBand i).counters = s.counters := rfl
@[simp] theorem freeDryBand_retained (s : State) (i : Fin 8) : (s.freeDryBand i).retained = s.retained := rfl
@[simp] theorem freeDryBand_retainedLost (s : State) (i : Fin 8) : (s.freeDryBand i).retainedLost = s.retainedLost := rfl
@[simp] theorem freeDryBand_queue (s : State) (i : Fin 8) : (s.freeDryBand i).queue = s.queue := rfl
@[simp] theorem freeDryBand_nextJob (s : State) (i : Fin 8) : (s.freeDryBand i).nextJob = s.nextJob := rfl
@[simp] theorem freeDryBand_redo (s : State) (i : Fin 8) : (s.freeDryBand i).redo = s.redo := rfl
@[simp] theorem freeDryBand_pool (s : State) (i : Fin 8) : (s.freeDryBand i).pool = s.pool := rfl
@[simp] theorem freeDryBand_hand (s : State) (i : Fin 8) : (s.freeDryBand i).hand = s.hand := rfl
@[simp] theorem freeDryBand_labels (s : State) (i : Fin 8) : (s.freeDryBand i).labels = s.labels := rfl
@[simp] theorem freeDryBand_profile (s : State) (i : Fin 8) : (s.freeDryBand i).profile = s.profile := rfl
@[simp] theorem freeDryBand_settings (s : State) (i : Fin 8) : (s.freeDryBand i).settings = s.settings := rfl
@[simp] theorem freeDryBand_engine (s : State) (i : Fin 8) : (s.freeDryBand i).engine = s.engine := rfl
@[simp] theorem freeDryBand_freeTick (s : State) (i : Fin 8) : (s.freeDryBand i).freeTick = s.freeTick := rfl

@[simp] theorem takeBand_pending (s : State) : (s.takeBand).pending = s.pending := rfl
@[simp] theorem takeBand_held (s : State) : (s.takeBand).held = s.held := rfl
@[simp] theorem takeBand_ports (s : State) : (s.takeBand).ports = s.ports := rfl
@[simp] theorem takeBand_slots (s : State) : (s.takeBand).slots = s.slots := rfl
@[simp] theorem takeBand_counters (s : State) : (s.takeBand).counters = s.counters := rfl
@[simp] theorem takeBand_retained (s : State) : (s.takeBand).retained = s.retained := rfl
@[simp] theorem takeBand_retainedLost (s : State) : (s.takeBand).retainedLost = s.retainedLost := rfl
@[simp] theorem takeBand_queue (s : State) : (s.takeBand).queue = s.queue := rfl
@[simp] theorem takeBand_nextJob (s : State) : (s.takeBand).nextJob = s.nextJob := rfl
@[simp] theorem takeBand_redo (s : State) : (s.takeBand).redo = s.redo := rfl
@[simp] theorem takeBand_pool (s : State) : (s.takeBand).pool = s.pool := rfl
@[simp] theorem takeBand_hand (s : State) : (s.takeBand).hand = s.hand := rfl
@[simp] theorem takeBand_labels (s : State) : (s.takeBand).labels = s.labels := rfl
@[simp] theorem takeBand_profile (s : State) : (s.takeBand).profile = s.profile := rfl
@[simp] theorem takeBand_settings (s : State) : (s.takeBand).settings = s.settings := rfl
@[simp] theorem takeBand_engine (s : State) : (s.takeBand).engine = s.engine := rfl
@[simp] theorem takeBand_freeTick (s : State) : (s.takeBand).freeTick = s.freeTick := rfl

@[simp] theorem skipBand_pending (s : State) : (s.skipBand).pending = s.pending := rfl
@[simp] theorem skipBand_held (s : State) : (s.skipBand).held = s.held := rfl
@[simp] theorem skipBand_ports (s : State) : (s.skipBand).ports = s.ports := rfl
@[simp] theorem skipBand_slots (s : State) : (s.skipBand).slots = s.slots := rfl
@[simp] theorem skipBand_counters (s : State) : (s.skipBand).counters = s.counters := rfl
@[simp] theorem skipBand_retained (s : State) : (s.skipBand).retained = s.retained := rfl
@[simp] theorem skipBand_retainedLost (s : State) : (s.skipBand).retainedLost = s.retainedLost := rfl
@[simp] theorem skipBand_queue (s : State) : (s.skipBand).queue = s.queue := rfl
@[simp] theorem skipBand_nextJob (s : State) : (s.skipBand).nextJob = s.nextJob := rfl
@[simp] theorem skipBand_redo (s : State) : (s.skipBand).redo = s.redo := rfl
@[simp] theorem skipBand_pool (s : State) : (s.skipBand).pool = s.pool := rfl
@[simp] theorem skipBand_hand (s : State) : (s.skipBand).hand = s.hand := rfl
@[simp] theorem skipBand_labels (s : State) : (s.skipBand).labels = s.labels := rfl
@[simp] theorem skipBand_profile (s : State) : (s.skipBand).profile = s.profile := rfl
@[simp] theorem skipBand_settings (s : State) : (s.skipBand).settings = s.settings := rfl
@[simp] theorem skipBand_engine (s : State) : (s.skipBand).engine = s.engine := rfl
@[simp] theorem skipBand_freeTick (s : State) : (s.skipBand).freeTick = s.freeTick := rfl

@[simp] theorem freeBuffer_pending (s : State) (i : Fin 8) : (s.freeBuffer i).pending = s.pending := rfl
@[simp] theorem freeBuffer_held (s : State) (i : Fin 8) : (s.freeBuffer i).held = s.held := rfl
@[simp] theorem freeBuffer_ports (s : State) (i : Fin 8) : (s.freeBuffer i).ports = s.ports := rfl
@[simp] theorem freeBuffer_slots (s : State) (i : Fin 8) : (s.freeBuffer i).slots = s.slots := rfl
@[simp] theorem freeBuffer_counters (s : State) (i : Fin 8) : (s.freeBuffer i).counters = s.counters := rfl
@[simp] theorem freeBuffer_retained (s : State) (i : Fin 8) : (s.freeBuffer i).retained = s.retained := rfl
@[simp] theorem freeBuffer_retainedLost (s : State) (i : Fin 8) : (s.freeBuffer i).retainedLost = s.retainedLost := rfl
@[simp] theorem freeBuffer_queue (s : State) (i : Fin 8) : (s.freeBuffer i).queue = s.queue := rfl
@[simp] theorem freeBuffer_nextJob (s : State) (i : Fin 8) : (s.freeBuffer i).nextJob = s.nextJob := rfl
@[simp] theorem freeBuffer_redo (s : State) (i : Fin 8) : (s.freeBuffer i).redo = s.redo := rfl
@[simp] theorem freeBuffer_pool (s : State) (i : Fin 8) : (s.freeBuffer i).pool = s.pool := rfl
@[simp] theorem freeBuffer_hand (s : State) (i : Fin 8) : (s.freeBuffer i).hand = s.hand := rfl
@[simp] theorem freeBuffer_labels (s : State) (i : Fin 8) : (s.freeBuffer i).labels = s.labels := rfl
@[simp] theorem freeBuffer_profile (s : State) (i : Fin 8) : (s.freeBuffer i).profile = s.profile := rfl
@[simp] theorem freeBuffer_settings (s : State) (i : Fin 8) : (s.freeBuffer i).settings = s.settings := rfl
@[simp] theorem freeBuffer_engine (s : State) (i : Fin 8) : (s.freeBuffer i).engine = s.engine := rfl
@[simp] theorem freeBuffer_freeTick (s : State) (i : Fin 8) : (s.freeBuffer i).freeTick = s.freeTick := rfl

@[simp] theorem onLabel_pending (s : State) (j c : Nat) (f : LabelRecord → LabelRecord) : (s.onLabel j c f).pending = s.pending := rfl
@[simp] theorem onLabel_held (s : State) (j c : Nat) (f : LabelRecord → LabelRecord) : (s.onLabel j c f).held = s.held := rfl
@[simp] theorem onLabel_ports (s : State) (j c : Nat) (f : LabelRecord → LabelRecord) : (s.onLabel j c f).ports = s.ports := rfl
@[simp] theorem onLabel_slots (s : State) (j c : Nat) (f : LabelRecord → LabelRecord) : (s.onLabel j c f).slots = s.slots := rfl
@[simp] theorem onLabel_counters (s : State) (j c : Nat) (f : LabelRecord → LabelRecord) : (s.onLabel j c f).counters = s.counters := rfl
@[simp] theorem onLabel_retained (s : State) (j c : Nat) (f : LabelRecord → LabelRecord) : (s.onLabel j c f).retained = s.retained := rfl
@[simp] theorem onLabel_retainedLost (s : State) (j c : Nat) (f : LabelRecord → LabelRecord) : (s.onLabel j c f).retainedLost = s.retainedLost := rfl
@[simp] theorem onLabel_queue (s : State) (j c : Nat) (f : LabelRecord → LabelRecord) : (s.onLabel j c f).queue = s.queue := rfl
@[simp] theorem onLabel_nextJob (s : State) (j c : Nat) (f : LabelRecord → LabelRecord) : (s.onLabel j c f).nextJob = s.nextJob := rfl
@[simp] theorem onLabel_redo (s : State) (j c : Nat) (f : LabelRecord → LabelRecord) : (s.onLabel j c f).redo = s.redo := rfl
@[simp] theorem onLabel_pool (s : State) (j c : Nat) (f : LabelRecord → LabelRecord) : (s.onLabel j c f).pool = s.pool := rfl
@[simp] theorem onLabel_ring (s : State) (j c : Nat) (f : LabelRecord → LabelRecord) : (s.onLabel j c f).ring = s.ring := rfl
@[simp] theorem onLabel_hand (s : State) (j c : Nat) (f : LabelRecord → LabelRecord) : (s.onLabel j c f).hand = s.hand := rfl
@[simp] theorem onLabel_profile (s : State) (j c : Nat) (f : LabelRecord → LabelRecord) : (s.onLabel j c f).profile = s.profile := rfl
@[simp] theorem onLabel_settings (s : State) (j c : Nat) (f : LabelRecord → LabelRecord) : (s.onLabel j c f).settings = s.settings := rfl
@[simp] theorem onLabel_engine (s : State) (j c : Nat) (f : LabelRecord → LabelRecord) : (s.onLabel j c f).engine = s.engine := rfl
@[simp] theorem onLabel_freeTick (s : State) (j c : Nat) (f : LabelRecord → LabelRecord) : (s.onLabel j c f).freeTick = s.freeTick := rfl

@[simp] theorem dropLabel_pending (s : State) (j c : Nat) : (s.dropLabel j c).pending = s.pending := rfl
@[simp] theorem dropLabel_held (s : State) (j c : Nat) : (s.dropLabel j c).held = s.held := rfl
@[simp] theorem dropLabel_ports (s : State) (j c : Nat) : (s.dropLabel j c).ports = s.ports := rfl
@[simp] theorem dropLabel_slots (s : State) (j c : Nat) : (s.dropLabel j c).slots = s.slots := rfl
@[simp] theorem dropLabel_counters (s : State) (j c : Nat) : (s.dropLabel j c).counters = s.counters := rfl
@[simp] theorem dropLabel_retained (s : State) (j c : Nat) : (s.dropLabel j c).retained = s.retained := rfl
@[simp] theorem dropLabel_retainedLost (s : State) (j c : Nat) : (s.dropLabel j c).retainedLost = s.retainedLost := rfl
@[simp] theorem dropLabel_queue (s : State) (j c : Nat) : (s.dropLabel j c).queue = s.queue := rfl
@[simp] theorem dropLabel_nextJob (s : State) (j c : Nat) : (s.dropLabel j c).nextJob = s.nextJob := rfl
@[simp] theorem dropLabel_redo (s : State) (j c : Nat) : (s.dropLabel j c).redo = s.redo := rfl
@[simp] theorem dropLabel_pool (s : State) (j c : Nat) : (s.dropLabel j c).pool = s.pool := rfl
@[simp] theorem dropLabel_ring (s : State) (j c : Nat) : (s.dropLabel j c).ring = s.ring := rfl
@[simp] theorem dropLabel_hand (s : State) (j c : Nat) : (s.dropLabel j c).hand = s.hand := rfl
@[simp] theorem dropLabel_profile (s : State) (j c : Nat) : (s.dropLabel j c).profile = s.profile := rfl
@[simp] theorem dropLabel_settings (s : State) (j c : Nat) : (s.dropLabel j c).settings = s.settings := rfl
@[simp] theorem dropLabel_engine (s : State) (j c : Nat) : (s.dropLabel j c).engine = s.engine := rfl
@[simp] theorem dropLabel_freeTick (s : State) (j c : Nat) : (s.dropLabel j c).freeTick = s.freeTick := rfl

@[simp] theorem onHead_pending (s : State) (j c : Nat) (f : HeadLabel → HeadLabel) : (s.onHead j c f).pending = s.pending := rfl
@[simp] theorem onHead_held (s : State) (j c : Nat) (f : HeadLabel → HeadLabel) : (s.onHead j c f).held = s.held := rfl
@[simp] theorem onHead_ports (s : State) (j c : Nat) (f : HeadLabel → HeadLabel) : (s.onHead j c f).ports = s.ports := rfl
@[simp] theorem onHead_slots (s : State) (j c : Nat) (f : HeadLabel → HeadLabel) : (s.onHead j c f).slots = s.slots := rfl
@[simp] theorem onHead_counters (s : State) (j c : Nat) (f : HeadLabel → HeadLabel) : (s.onHead j c f).counters = s.counters := rfl
@[simp] theorem onHead_retained (s : State) (j c : Nat) (f : HeadLabel → HeadLabel) : (s.onHead j c f).retained = s.retained := rfl
@[simp] theorem onHead_retainedLost (s : State) (j c : Nat) (f : HeadLabel → HeadLabel) : (s.onHead j c f).retainedLost = s.retainedLost := rfl
@[simp] theorem onHead_queue (s : State) (j c : Nat) (f : HeadLabel → HeadLabel) : (s.onHead j c f).queue = s.queue := rfl
@[simp] theorem onHead_nextJob (s : State) (j c : Nat) (f : HeadLabel → HeadLabel) : (s.onHead j c f).nextJob = s.nextJob := rfl
@[simp] theorem onHead_redo (s : State) (j c : Nat) (f : HeadLabel → HeadLabel) : (s.onHead j c f).redo = s.redo := rfl
@[simp] theorem onHead_pool (s : State) (j c : Nat) (f : HeadLabel → HeadLabel) : (s.onHead j c f).pool = s.pool := rfl
@[simp] theorem onHead_ring (s : State) (j c : Nat) (f : HeadLabel → HeadLabel) : (s.onHead j c f).ring = s.ring := rfl
@[simp] theorem onHead_hand (s : State) (j c : Nat) (f : HeadLabel → HeadLabel) : (s.onHead j c f).hand = s.hand := rfl
@[simp] theorem onHead_labels (s : State) (j c : Nat) (f : HeadLabel → HeadLabel) : (s.onHead j c f).labels = s.labels := rfl
@[simp] theorem onHead_profile (s : State) (j c : Nat) (f : HeadLabel → HeadLabel) : (s.onHead j c f).profile = s.profile := rfl
@[simp] theorem onHead_settings (s : State) (j c : Nat) (f : HeadLabel → HeadLabel) : (s.onHead j c f).settings = s.settings := rfl
@[simp] theorem onHead_freeTick (s : State) (j c : Nat) (f : HeadLabel → HeadLabel) : (s.onHead j c f).freeTick = s.freeTick := rfl

@[simp] theorem reply_pending (s : State) (p : Port) (k : Byte) (c : ReplyCode) (d : List Byte) : (s.reply p k c d).pending = s.pending := rfl
@[simp] theorem reply_held (s : State) (p : Port) (k : Byte) (c : ReplyCode) (d : List Byte) : (s.reply p k c d).held = s.held := rfl
@[simp] theorem reply_slots (s : State) (p : Port) (k : Byte) (c : ReplyCode) (d : List Byte) : (s.reply p k c d).slots = s.slots := rfl
@[simp] theorem reply_counters (s : State) (p : Port) (k : Byte) (c : ReplyCode) (d : List Byte) : (s.reply p k c d).counters = s.counters := rfl
@[simp] theorem reply_retained (s : State) (p : Port) (k : Byte) (c : ReplyCode) (d : List Byte) : (s.reply p k c d).retained = s.retained := rfl
@[simp] theorem reply_retainedLost (s : State) (p : Port) (k : Byte) (c : ReplyCode) (d : List Byte) : (s.reply p k c d).retainedLost = s.retainedLost := rfl
@[simp] theorem reply_queue (s : State) (p : Port) (k : Byte) (c : ReplyCode) (d : List Byte) : (s.reply p k c d).queue = s.queue := rfl
@[simp] theorem reply_nextJob (s : State) (p : Port) (k : Byte) (c : ReplyCode) (d : List Byte) : (s.reply p k c d).nextJob = s.nextJob := rfl
@[simp] theorem reply_redo (s : State) (p : Port) (k : Byte) (c : ReplyCode) (d : List Byte) : (s.reply p k c d).redo = s.redo := rfl
@[simp] theorem reply_pool (s : State) (p : Port) (k : Byte) (c : ReplyCode) (d : List Byte) : (s.reply p k c d).pool = s.pool := rfl
@[simp] theorem reply_ring (s : State) (p : Port) (k : Byte) (c : ReplyCode) (d : List Byte) : (s.reply p k c d).ring = s.ring := rfl
@[simp] theorem reply_hand (s : State) (p : Port) (k : Byte) (c : ReplyCode) (d : List Byte) : (s.reply p k c d).hand = s.hand := rfl
@[simp] theorem reply_labels (s : State) (p : Port) (k : Byte) (c : ReplyCode) (d : List Byte) : (s.reply p k c d).labels = s.labels := rfl
@[simp] theorem reply_profile (s : State) (p : Port) (k : Byte) (c : ReplyCode) (d : List Byte) : (s.reply p k c d).profile = s.profile := rfl
@[simp] theorem reply_settings (s : State) (p : Port) (k : Byte) (c : ReplyCode) (d : List Byte) : (s.reply p k c d).settings = s.settings := rfl
@[simp] theorem reply_engine (s : State) (p : Port) (k : Byte) (c : ReplyCode) (d : List Byte) : (s.reply p k c d).engine = s.engine := rfl
@[simp] theorem reply_freeTick (s : State) (p : Port) (k : Byte) (c : ReplyCode) (d : List Byte) : (s.reply p k c d).freeTick = s.freeTick := rfl

@[simp] theorem accept_pending (s : State) (p : Port) (k : Kind) (d : List Byte) : (s.accept p k d).pending = s.pending := rfl
@[simp] theorem accept_held (s : State) (p : Port) (k : Kind) (d : List Byte) : (s.accept p k d).held = s.held := rfl
@[simp] theorem accept_slots (s : State) (p : Port) (k : Kind) (d : List Byte) : (s.accept p k d).slots = s.slots := rfl
@[simp] theorem accept_counters (s : State) (p : Port) (k : Kind) (d : List Byte) : (s.accept p k d).counters = s.counters := rfl
@[simp] theorem accept_retained (s : State) (p : Port) (k : Kind) (d : List Byte) : (s.accept p k d).retained = s.retained := rfl
@[simp] theorem accept_retainedLost (s : State) (p : Port) (k : Kind) (d : List Byte) : (s.accept p k d).retainedLost = s.retainedLost := rfl
@[simp] theorem accept_queue (s : State) (p : Port) (k : Kind) (d : List Byte) : (s.accept p k d).queue = s.queue := rfl
@[simp] theorem accept_nextJob (s : State) (p : Port) (k : Kind) (d : List Byte) : (s.accept p k d).nextJob = s.nextJob := rfl
@[simp] theorem accept_redo (s : State) (p : Port) (k : Kind) (d : List Byte) : (s.accept p k d).redo = s.redo := rfl
@[simp] theorem accept_pool (s : State) (p : Port) (k : Kind) (d : List Byte) : (s.accept p k d).pool = s.pool := rfl
@[simp] theorem accept_ring (s : State) (p : Port) (k : Kind) (d : List Byte) : (s.accept p k d).ring = s.ring := rfl
@[simp] theorem accept_hand (s : State) (p : Port) (k : Kind) (d : List Byte) : (s.accept p k d).hand = s.hand := rfl
@[simp] theorem accept_labels (s : State) (p : Port) (k : Kind) (d : List Byte) : (s.accept p k d).labels = s.labels := rfl
@[simp] theorem accept_profile (s : State) (p : Port) (k : Kind) (d : List Byte) : (s.accept p k d).profile = s.profile := rfl
@[simp] theorem accept_settings (s : State) (p : Port) (k : Kind) (d : List Byte) : (s.accept p k d).settings = s.settings := rfl
@[simp] theorem accept_engine (s : State) (p : Port) (k : Kind) (d : List Byte) : (s.accept p k d).engine = s.engine := rfl
@[simp] theorem accept_freeTick (s : State) (p : Port) (k : Kind) (d : List Byte) : (s.accept p k d).freeTick = s.freeTick := rfl

@[simp] theorem answer_pending (s : State) (p : Port) (k : Kind) (c : ReplyCode) : (s.answer p k c).pending = s.pending := rfl
@[simp] theorem answer_held (s : State) (p : Port) (k : Kind) (c : ReplyCode) : (s.answer p k c).held = s.held := rfl
@[simp] theorem answer_slots (s : State) (p : Port) (k : Kind) (c : ReplyCode) : (s.answer p k c).slots = s.slots := rfl
@[simp] theorem answer_counters (s : State) (p : Port) (k : Kind) (c : ReplyCode) : (s.answer p k c).counters = s.counters := rfl
@[simp] theorem answer_retained (s : State) (p : Port) (k : Kind) (c : ReplyCode) : (s.answer p k c).retained = s.retained := rfl
@[simp] theorem answer_retainedLost (s : State) (p : Port) (k : Kind) (c : ReplyCode) : (s.answer p k c).retainedLost = s.retainedLost := rfl
@[simp] theorem answer_queue (s : State) (p : Port) (k : Kind) (c : ReplyCode) : (s.answer p k c).queue = s.queue := rfl
@[simp] theorem answer_nextJob (s : State) (p : Port) (k : Kind) (c : ReplyCode) : (s.answer p k c).nextJob = s.nextJob := rfl
@[simp] theorem answer_redo (s : State) (p : Port) (k : Kind) (c : ReplyCode) : (s.answer p k c).redo = s.redo := rfl
@[simp] theorem answer_pool (s : State) (p : Port) (k : Kind) (c : ReplyCode) : (s.answer p k c).pool = s.pool := rfl
@[simp] theorem answer_ring (s : State) (p : Port) (k : Kind) (c : ReplyCode) : (s.answer p k c).ring = s.ring := rfl
@[simp] theorem answer_hand (s : State) (p : Port) (k : Kind) (c : ReplyCode) : (s.answer p k c).hand = s.hand := rfl
@[simp] theorem answer_labels (s : State) (p : Port) (k : Kind) (c : ReplyCode) : (s.answer p k c).labels = s.labels := rfl
@[simp] theorem answer_profile (s : State) (p : Port) (k : Kind) (c : ReplyCode) : (s.answer p k c).profile = s.profile := rfl
@[simp] theorem answer_settings (s : State) (p : Port) (k : Kind) (c : ReplyCode) : (s.answer p k c).settings = s.settings := rfl
@[simp] theorem answer_engine (s : State) (p : Port) (k : Kind) (c : ReplyCode) : (s.answer p k c).engine = s.engine := rfl
@[simp] theorem answer_freeTick (s : State) (p : Port) (k : Kind) (c : ReplyCode) : (s.answer p k c).freeTick = s.freeTick := rfl

@[simp] theorem post_pending (s : State) (p : Port) (e : Event) : (s.post p e).pending = s.pending := rfl
@[simp] theorem post_held (s : State) (p : Port) (e : Event) : (s.post p e).held = s.held := rfl
@[simp] theorem post_slots (s : State) (p : Port) (e : Event) : (s.post p e).slots = s.slots := rfl
@[simp] theorem post_counters (s : State) (p : Port) (e : Event) : (s.post p e).counters = s.counters := rfl
@[simp] theorem post_retained (s : State) (p : Port) (e : Event) : (s.post p e).retained = s.retained := rfl
@[simp] theorem post_retainedLost (s : State) (p : Port) (e : Event) : (s.post p e).retainedLost = s.retainedLost := rfl
@[simp] theorem post_queue (s : State) (p : Port) (e : Event) : (s.post p e).queue = s.queue := rfl
@[simp] theorem post_nextJob (s : State) (p : Port) (e : Event) : (s.post p e).nextJob = s.nextJob := rfl
@[simp] theorem post_redo (s : State) (p : Port) (e : Event) : (s.post p e).redo = s.redo := rfl
@[simp] theorem post_pool (s : State) (p : Port) (e : Event) : (s.post p e).pool = s.pool := rfl
@[simp] theorem post_ring (s : State) (p : Port) (e : Event) : (s.post p e).ring = s.ring := rfl
@[simp] theorem post_hand (s : State) (p : Port) (e : Event) : (s.post p e).hand = s.hand := rfl
@[simp] theorem post_labels (s : State) (p : Port) (e : Event) : (s.post p e).labels = s.labels := rfl
@[simp] theorem post_profile (s : State) (p : Port) (e : Event) : (s.post p e).profile = s.profile := rfl
@[simp] theorem post_settings (s : State) (p : Port) (e : Event) : (s.post p e).settings = s.settings := rfl
@[simp] theorem post_engine (s : State) (p : Port) (e : Event) : (s.post p e).engine = s.engine := rfl
@[simp] theorem post_freeTick (s : State) (p : Port) (e : Event) : (s.post p e).freeTick = s.freeTick := rfl

@[simp] theorem postAll_pending (s : State) (e : Event) : (s.postAll e).pending = s.pending := rfl
@[simp] theorem postAll_held (s : State) (e : Event) : (s.postAll e).held = s.held := rfl
@[simp] theorem postAll_slots (s : State) (e : Event) : (s.postAll e).slots = s.slots := rfl
@[simp] theorem postAll_counters (s : State) (e : Event) : (s.postAll e).counters = s.counters := rfl
@[simp] theorem postAll_retained (s : State) (e : Event) : (s.postAll e).retained = s.retained := rfl
@[simp] theorem postAll_retainedLost (s : State) (e : Event) : (s.postAll e).retainedLost = s.retainedLost := rfl
@[simp] theorem postAll_queue (s : State) (e : Event) : (s.postAll e).queue = s.queue := rfl
@[simp] theorem postAll_nextJob (s : State) (e : Event) : (s.postAll e).nextJob = s.nextJob := rfl
@[simp] theorem postAll_redo (s : State) (e : Event) : (s.postAll e).redo = s.redo := rfl
@[simp] theorem postAll_pool (s : State) (e : Event) : (s.postAll e).pool = s.pool := rfl
@[simp] theorem postAll_ring (s : State) (e : Event) : (s.postAll e).ring = s.ring := rfl
@[simp] theorem postAll_hand (s : State) (e : Event) : (s.postAll e).hand = s.hand := rfl
@[simp] theorem postAll_labels (s : State) (e : Event) : (s.postAll e).labels = s.labels := rfl
@[simp] theorem postAll_profile (s : State) (e : Event) : (s.postAll e).profile = s.profile := rfl
@[simp] theorem postAll_settings (s : State) (e : Event) : (s.postAll e).settings = s.settings := rfl
@[simp] theorem postAll_engine (s : State) (e : Event) : (s.postAll e).engine = s.engine := rfl
@[simp] theorem postAll_freeTick (s : State) (e : Event) : (s.postAll e).freeTick = s.freeTick := rfl

@[simp] theorem handLine_pending (s : State) (j c y : Nat) : (s.handLine j c y).pending = s.pending := rfl
@[simp] theorem handLine_held (s : State) (j c y : Nat) : (s.handLine j c y).held = s.held := rfl
@[simp] theorem handLine_slots (s : State) (j c y : Nat) : (s.handLine j c y).slots = s.slots := rfl
@[simp] theorem handLine_counters (s : State) (j c y : Nat) : (s.handLine j c y).counters = s.counters := rfl
@[simp] theorem handLine_retained (s : State) (j c y : Nat) : (s.handLine j c y).retained = s.retained := rfl
@[simp] theorem handLine_retainedLost (s : State) (j c y : Nat) : (s.handLine j c y).retainedLost = s.retainedLost := rfl
@[simp] theorem handLine_queue (s : State) (j c y : Nat) : (s.handLine j c y).queue = s.queue := rfl
@[simp] theorem handLine_nextJob (s : State) (j c y : Nat) : (s.handLine j c y).nextJob = s.nextJob := rfl
@[simp] theorem handLine_redo (s : State) (j c y : Nat) : (s.handLine j c y).redo = s.redo := rfl
@[simp] theorem handLine_pool (s : State) (j c y : Nat) : (s.handLine j c y).pool = s.pool := rfl
@[simp] theorem handLine_ring (s : State) (j c y : Nat) : (s.handLine j c y).ring = s.ring := rfl
@[simp] theorem handLine_hand (s : State) (j c y : Nat) : (s.handLine j c y).hand = s.hand := rfl
@[simp] theorem handLine_labels (s : State) (j c y : Nat) : (s.handLine j c y).labels = s.labels := rfl
@[simp] theorem handLine_profile (s : State) (j c y : Nat) : (s.handLine j c y).profile = s.profile := rfl
@[simp] theorem handLine_settings (s : State) (j c y : Nat) : (s.handLine j c y).settings = s.settings := rfl
@[simp] theorem handLine_engine (s : State) (j c y : Nat) : (s.handLine j c y).engine = s.engine := rfl
@[simp] theorem handLine_freeTick (s : State) (j c y : Nat) : (s.handLine j c y).freeTick = s.freeTick := rfl

@[simp] theorem leaveQueue_pending (s : State) (n : Nat) : (s.leaveQueue n).pending = s.pending := rfl
@[simp] theorem leaveQueue_held (s : State) (n : Nat) : (s.leaveQueue n).held = s.held := rfl
@[simp] theorem leaveQueue_slots (s : State) (n : Nat) : (s.leaveQueue n).slots = s.slots := rfl
@[simp] theorem leaveQueue_counters (s : State) (n : Nat) : (s.leaveQueue n).counters = s.counters := rfl
@[simp] theorem leaveQueue_retained (s : State) (n : Nat) : (s.leaveQueue n).retained = s.retained := rfl
@[simp] theorem leaveQueue_retainedLost (s : State) (n : Nat) : (s.leaveQueue n).retainedLost = s.retainedLost := rfl
@[simp] theorem leaveQueue_nextJob (s : State) (n : Nat) : (s.leaveQueue n).nextJob = s.nextJob := rfl
@[simp] theorem leaveQueue_redo (s : State) (n : Nat) : (s.leaveQueue n).redo = s.redo := rfl
@[simp] theorem leaveQueue_pool (s : State) (n : Nat) : (s.leaveQueue n).pool = s.pool := rfl
@[simp] theorem leaveQueue_ring (s : State) (n : Nat) : (s.leaveQueue n).ring = s.ring := rfl
@[simp] theorem leaveQueue_hand (s : State) (n : Nat) : (s.leaveQueue n).hand = s.hand := rfl
@[simp] theorem leaveQueue_labels (s : State) (n : Nat) : (s.leaveQueue n).labels = s.labels := rfl
@[simp] theorem leaveQueue_profile (s : State) (n : Nat) : (s.leaveQueue n).profile = s.profile := rfl
@[simp] theorem leaveQueue_settings (s : State) (n : Nat) : (s.leaveQueue n).settings = s.settings := rfl
@[simp] theorem leaveQueue_engine (s : State) (n : Nat) : (s.leaveQueue n).engine = s.engine := rfl
@[simp] theorem leaveQueue_freeTick (s : State) (n : Nat) : (s.leaveQueue n).freeTick = s.freeTick := rfl

@[simp] theorem retainCounters_pending (s : State) : (s.retainCounters).pending = s.pending := rfl
@[simp] theorem retainCounters_held (s : State) : (s.retainCounters).held = s.held := rfl
@[simp] theorem retainCounters_ports (s : State) : (s.retainCounters).ports = s.ports := rfl
@[simp] theorem retainCounters_slots (s : State) : (s.retainCounters).slots = s.slots := rfl
@[simp] theorem retainCounters_counters (s : State) : (s.retainCounters).counters = s.counters := rfl
@[simp] theorem retainCounters_retainedLost (s : State) : (s.retainCounters).retainedLost = s.retainedLost := rfl
@[simp] theorem retainCounters_queue (s : State) : (s.retainCounters).queue = s.queue := rfl
@[simp] theorem retainCounters_nextJob (s : State) : (s.retainCounters).nextJob = s.nextJob := rfl
@[simp] theorem retainCounters_redo (s : State) : (s.retainCounters).redo = s.redo := rfl
@[simp] theorem retainCounters_pool (s : State) : (s.retainCounters).pool = s.pool := rfl
@[simp] theorem retainCounters_ring (s : State) : (s.retainCounters).ring = s.ring := rfl
@[simp] theorem retainCounters_hand (s : State) : (s.retainCounters).hand = s.hand := rfl
@[simp] theorem retainCounters_labels (s : State) : (s.retainCounters).labels = s.labels := rfl
@[simp] theorem retainCounters_profile (s : State) : (s.retainCounters).profile = s.profile := rfl
@[simp] theorem retainCounters_settings (s : State) : (s.retainCounters).settings = s.settings := rfl
@[simp] theorem retainCounters_engine (s : State) : (s.retainCounters).engine = s.engine := rfl
@[simp] theorem retainCounters_freeTick (s : State) : (s.retainCounters).freeTick = s.freeTick := rfl

@[simp] theorem retainScope_pending (s : State) (c : Scope) : (s.retainScope c).pending = s.pending := rfl
@[simp] theorem retainScope_held (s : State) (c : Scope) : (s.retainScope c).held = s.held := rfl
@[simp] theorem retainScope_ports (s : State) (c : Scope) : (s.retainScope c).ports = s.ports := rfl
@[simp] theorem retainScope_slots (s : State) (c : Scope) : (s.retainScope c).slots = s.slots := rfl
@[simp] theorem retainScope_counters (s : State) (c : Scope) : (s.retainScope c).counters = s.counters := rfl
@[simp] theorem retainScope_retainedLost (s : State) (c : Scope) : (s.retainScope c).retainedLost = s.retainedLost := rfl
@[simp] theorem retainScope_queue (s : State) (c : Scope) : (s.retainScope c).queue = s.queue := rfl
@[simp] theorem retainScope_nextJob (s : State) (c : Scope) : (s.retainScope c).nextJob = s.nextJob := rfl
@[simp] theorem retainScope_redo (s : State) (c : Scope) : (s.retainScope c).redo = s.redo := rfl
@[simp] theorem retainScope_pool (s : State) (c : Scope) : (s.retainScope c).pool = s.pool := rfl
@[simp] theorem retainScope_ring (s : State) (c : Scope) : (s.retainScope c).ring = s.ring := rfl
@[simp] theorem retainScope_hand (s : State) (c : Scope) : (s.retainScope c).hand = s.hand := rfl
@[simp] theorem retainScope_labels (s : State) (c : Scope) : (s.retainScope c).labels = s.labels := rfl
@[simp] theorem retainScope_profile (s : State) (c : Scope) : (s.retainScope c).profile = s.profile := rfl
@[simp] theorem retainScope_settings (s : State) (c : Scope) : (s.retainScope c).settings = s.settings := rfl
@[simp] theorem retainScope_engine (s : State) (c : Scope) : (s.retainScope c).engine = s.engine := rfl
@[simp] theorem retainScope_freeTick (s : State) (c : Scope) : (s.retainScope c).freeTick = s.freeTick := rfl

/-! ### Updates of the engine -/

@[simp] theorem motorStop_mode (e : Engine) : (e.motorStop).mode = e.mode := rfl
@[simp] theorem motorStop_faults (e : Engine) : (e.motorStop).faults = e.faults := rfl
@[simp] theorem motorStop_hp (e : Engine) : (e.motorStop).hp = e.hp := rfl
@[simp] theorem motorStop_mark (e : Engine) : (e.motorStop).mark = e.mark := rfl
@[simp] theorem motorStop_gap (e : Engine) : (e.motorStop).gap = e.gap := rfl
@[simp] theorem motorStop_gapRun (e : Engine) : (e.motorStop).gapRun = e.gapRun := rfl
@[simp] theorem motorStop_labelRun (e : Engine) : (e.motorStop).labelRun = e.labelRun := rfl
@[simp] theorem motorStop_gapLength (e : Engine) : (e.motorStop).gapLength = e.gapLength := rfl
@[simp] theorem motorStop_edges (e : Engine) : (e.motorStop).edges = e.edges := rfl
@[simp] theorem motorStop_registered (e : Engine) : (e.motorStop).registered = e.registered := rfl
@[simp] theorem motorStop_temperature (e : Engine) : (e.motorStop).temperature = e.temperature := rfl
@[simp] theorem motorStop_voltage (e : Engine) : (e.motorStop).voltage = e.voltage := rfl
@[simp] theorem motorStop_hot (e : Engine) : (e.motorStop).hot = e.hot := rfl
@[simp] theorem motorStop_heads (e : Engine) : (e.motorStop).heads = e.heads := rfl
@[simp] theorem motorStop_task (e : Engine) : (e.motorStop).task = e.task := rfl
@[simp] theorem motorStop_feedCount (e : Engine) : (e.motorStop).feedCount = e.feedCount := rfl
@[simp] theorem motorStop_absent (e : Engine) : (e.motorStop).absent = e.absent := rfl
@[simp] theorem motorStop_backLeft (e : Engine) : (e.motorStop).backLeft = e.backLeft := rfl
@[simp] theorem motorStop_backPeriod (e : Engine) : (e.motorStop).backPeriod = e.backPeriod := rfl
@[simp] theorem motorStop_dryLine (e : Engine) : (e.motorStop).dryLine = e.dryLine := rfl
@[simp] theorem motorStop_leavingDry (e : Engine) : (e.motorStop).leavingDry = e.leavingDry := rfl

@[simp] theorem faultCleared_faults (e : Engine) (n : Nat) : (e.faultCleared n).faults = e.faults := rfl
@[simp] theorem faultCleared_hp (e : Engine) (n : Nat) : (e.faultCleared n).hp = e.hp := rfl
@[simp] theorem faultCleared_temperature (e : Engine) (n : Nat) : (e.faultCleared n).temperature = e.temperature := rfl
@[simp] theorem faultCleared_voltage (e : Engine) (n : Nat) : (e.faultCleared n).voltage = e.voltage := rfl
@[simp] theorem faultCleared_hot (e : Engine) (n : Nat) : (e.faultCleared n).hot = e.hot := rfl
@[simp] theorem faultCleared_history1 (e : Engine) (n : Nat) : (e.faultCleared n).history1 = e.history1 := rfl
@[simp] theorem faultCleared_history2 (e : Engine) (n : Nat) : (e.faultCleared n).history2 = e.history2 := rfl
@[simp] theorem faultCleared_prevPeriod (e : Engine) (n : Nat) : (e.faultCleared n).prevPeriod = e.prevPeriod := rfl
@[simp] theorem faultCleared_line (e : Engine) (n : Nat) : (e.faultCleared n).line = e.line := rfl
@[simp] theorem faultCleared_heads (e : Engine) (n : Nat) : (e.faultCleared n).heads = e.heads := rfl
@[simp] theorem faultCleared_dryLine (e : Engine) (n : Nat) : (e.faultCleared n).dryLine = e.dryLine := rfl
@[simp] theorem faultCleared_leavingDry (e : Engine) (n : Nat) : (e.faultCleared n).leavingDry = e.leavingDry := rfl

@[simp] theorem prune_mode (e : Engine) (o : Int) : (e.prune o).mode = e.mode := rfl
@[simp] theorem prune_faults (e : Engine) (o : Int) : (e.prune o).faults = e.faults := rfl
@[simp] theorem prune_hp (e : Engine) (o : Int) : (e.prune o).hp = e.hp := rfl
@[simp] theorem prune_mark (e : Engine) (o : Int) : (e.prune o).mark = e.mark := rfl
@[simp] theorem prune_gap (e : Engine) (o : Int) : (e.prune o).gap = e.gap := rfl
@[simp] theorem prune_gapRun (e : Engine) (o : Int) : (e.prune o).gapRun = e.gapRun := rfl
@[simp] theorem prune_labelRun (e : Engine) (o : Int) : (e.prune o).labelRun = e.labelRun := rfl
@[simp] theorem prune_gapLength (e : Engine) (o : Int) : (e.prune o).gapLength = e.gapLength := rfl
@[simp] theorem prune_registered (e : Engine) (o : Int) : (e.prune o).registered = e.registered := rfl
@[simp] theorem prune_temperature (e : Engine) (o : Int) : (e.prune o).temperature = e.temperature := rfl
@[simp] theorem prune_voltage (e : Engine) (o : Int) : (e.prune o).voltage = e.voltage := rfl
@[simp] theorem prune_hot (e : Engine) (o : Int) : (e.prune o).hot = e.hot := rfl
@[simp] theorem prune_history1 (e : Engine) (o : Int) : (e.prune o).history1 = e.history1 := rfl
@[simp] theorem prune_history2 (e : Engine) (o : Int) : (e.prune o).history2 = e.history2 := rfl
@[simp] theorem prune_prevPeriod (e : Engine) (o : Int) : (e.prune o).prevPeriod = e.prevPeriod := rfl
@[simp] theorem prune_line (e : Engine) (o : Int) : (e.prune o).line = e.line := rfl
@[simp] theorem prune_heads (e : Engine) (o : Int) : (e.prune o).heads = e.heads := rfl
@[simp] theorem prune_task (e : Engine) (o : Int) : (e.prune o).task = e.task := rfl
@[simp] theorem prune_feedCount (e : Engine) (o : Int) : (e.prune o).feedCount = e.feedCount := rfl
@[simp] theorem prune_absent (e : Engine) (o : Int) : (e.prune o).absent = e.absent := rfl
@[simp] theorem prune_backLeft (e : Engine) (o : Int) : (e.prune o).backLeft = e.backLeft := rfl
@[simp] theorem prune_backPeriod (e : Engine) (o : Int) : (e.prune o).backPeriod = e.backPeriod := rfl
@[simp] theorem prune_dryLine (e : Engine) (o : Int) : (e.prune o).dryLine = e.dryLine := rfl
@[simp] theorem prune_leavingDry (e : Engine) (o : Int) : (e.prune o).leavingDry = e.leavingDry := rfl

@[simp] theorem shiftHistory_mode (e : Engine) (d : Nat) (l : Line) : (e.shiftHistory d l).mode = e.mode := rfl
@[simp] theorem shiftHistory_faults (e : Engine) (d : Nat) (l : Line) : (e.shiftHistory d l).faults = e.faults := rfl
@[simp] theorem shiftHistory_hp (e : Engine) (d : Nat) (l : Line) : (e.shiftHistory d l).hp = e.hp := rfl
@[simp] theorem shiftHistory_mark (e : Engine) (d : Nat) (l : Line) : (e.shiftHistory d l).mark = e.mark := rfl
@[simp] theorem shiftHistory_gap (e : Engine) (d : Nat) (l : Line) : (e.shiftHistory d l).gap = e.gap := rfl
@[simp] theorem shiftHistory_gapRun (e : Engine) (d : Nat) (l : Line) : (e.shiftHistory d l).gapRun = e.gapRun := rfl
@[simp] theorem shiftHistory_labelRun (e : Engine) (d : Nat) (l : Line) : (e.shiftHistory d l).labelRun = e.labelRun := rfl
@[simp] theorem shiftHistory_gapLength (e : Engine) (d : Nat) (l : Line) : (e.shiftHistory d l).gapLength = e.gapLength := rfl
@[simp] theorem shiftHistory_edges (e : Engine) (d : Nat) (l : Line) : (e.shiftHistory d l).edges = e.edges := rfl
@[simp] theorem shiftHistory_registered (e : Engine) (d : Nat) (l : Line) : (e.shiftHistory d l).registered = e.registered := rfl
@[simp] theorem shiftHistory_temperature (e : Engine) (d : Nat) (l : Line) : (e.shiftHistory d l).temperature = e.temperature := rfl
@[simp] theorem shiftHistory_voltage (e : Engine) (d : Nat) (l : Line) : (e.shiftHistory d l).voltage = e.voltage := rfl
@[simp] theorem shiftHistory_hot (e : Engine) (d : Nat) (l : Line) : (e.shiftHistory d l).hot = e.hot := rfl
@[simp] theorem shiftHistory_prevPeriod (e : Engine) (d : Nat) (l : Line) : (e.shiftHistory d l).prevPeriod = e.prevPeriod := rfl
@[simp] theorem shiftHistory_line (e : Engine) (d : Nat) (l : Line) : (e.shiftHistory d l).line = e.line := rfl
@[simp] theorem shiftHistory_heads (e : Engine) (d : Nat) (l : Line) : (e.shiftHistory d l).heads = e.heads := rfl
@[simp] theorem shiftHistory_task (e : Engine) (d : Nat) (l : Line) : (e.shiftHistory d l).task = e.task := rfl
@[simp] theorem shiftHistory_feedCount (e : Engine) (d : Nat) (l : Line) : (e.shiftHistory d l).feedCount = e.feedCount := rfl
@[simp] theorem shiftHistory_absent (e : Engine) (d : Nat) (l : Line) : (e.shiftHistory d l).absent = e.absent := rfl
@[simp] theorem shiftHistory_backLeft (e : Engine) (d : Nat) (l : Line) : (e.shiftHistory d l).backLeft = e.backLeft := rfl
@[simp] theorem shiftHistory_backPeriod (e : Engine) (d : Nat) (l : Line) : (e.shiftHistory d l).backPeriod = e.backPeriod := rfl
@[simp] theorem shiftHistory_dryLine (e : Engine) (d : Nat) (l : Line) : (e.shiftHistory d l).dryLine = e.dryLine := rfl
@[simp] theorem shiftHistory_leavingDry (e : Engine) (d : Nat) (l : Line) : (e.shiftHistory d l).leavingDry = e.leavingDry := rfl

@[simp] theorem loseRegistration_mode (e : Engine) : (e.loseRegistration).mode = e.mode := rfl
@[simp] theorem loseRegistration_faults (e : Engine) : (e.loseRegistration).faults = e.faults := rfl
@[simp] theorem loseRegistration_hp (e : Engine) : (e.loseRegistration).hp = e.hp := rfl
@[simp] theorem loseRegistration_mark (e : Engine) : (e.loseRegistration).mark = e.mark := rfl
@[simp] theorem loseRegistration_gap (e : Engine) : (e.loseRegistration).gap = e.gap := rfl
@[simp] theorem loseRegistration_gapRun (e : Engine) : (e.loseRegistration).gapRun = e.gapRun := rfl
@[simp] theorem loseRegistration_labelRun (e : Engine) : (e.loseRegistration).labelRun = e.labelRun := rfl
@[simp] theorem loseRegistration_gapLength (e : Engine) : (e.loseRegistration).gapLength = e.gapLength := rfl
@[simp] theorem loseRegistration_temperature (e : Engine) : (e.loseRegistration).temperature = e.temperature := rfl
@[simp] theorem loseRegistration_voltage (e : Engine) : (e.loseRegistration).voltage = e.voltage := rfl
@[simp] theorem loseRegistration_hot (e : Engine) : (e.loseRegistration).hot = e.hot := rfl
@[simp] theorem loseRegistration_history1 (e : Engine) : (e.loseRegistration).history1 = e.history1 := rfl
@[simp] theorem loseRegistration_history2 (e : Engine) : (e.loseRegistration).history2 = e.history2 := rfl
@[simp] theorem loseRegistration_prevPeriod (e : Engine) : (e.loseRegistration).prevPeriod = e.prevPeriod := rfl
@[simp] theorem loseRegistration_line (e : Engine) : (e.loseRegistration).line = e.line := rfl
@[simp] theorem loseRegistration_heads (e : Engine) : (e.loseRegistration).heads = e.heads := rfl
@[simp] theorem loseRegistration_task (e : Engine) : (e.loseRegistration).task = e.task := rfl
@[simp] theorem loseRegistration_feedCount (e : Engine) : (e.loseRegistration).feedCount = e.feedCount := rfl
@[simp] theorem loseRegistration_absent (e : Engine) : (e.loseRegistration).absent = e.absent := rfl
@[simp] theorem loseRegistration_backLeft (e : Engine) : (e.loseRegistration).backLeft = e.backLeft := rfl
@[simp] theorem loseRegistration_backPeriod (e : Engine) : (e.loseRegistration).backPeriod = e.backPeriod := rfl
@[simp] theorem loseRegistration_dryLine (e : Engine) : (e.loseRegistration).dryLine = e.dryLine := rfl
@[simp] theorem loseRegistration_leavingDry (e : Engine) : (e.loseRegistration).leavingDry = e.leavingDry := rfl

/-! ### Updates of a port -/

@[simp] theorem setPending_assembler (q : PortState) (n : EventSet) : (q.setPending n).assembler = q.assembler := rfl
@[simp] theorem setPending_frames (q : PortState) (n : EventSet) : (q.setPending n).frames = q.frames := rfl
@[simp] theorem setPending_cts (q : PortState) (n : EventSet) : (q.setPending n).cts = q.cts := rfl
@[simp] theorem setPending_discard (q : PortState) (n : EventSet) : (q.setPending n).discard = q.discard := rfl
@[simp] theorem setPending_settings (q : PortState) (n : EventSet) : (q.setPending n).settings = q.settings := rfl
@[simp] theorem setPending_reports (q : PortState) (n : EventSet) : (q.setPending n).reports = q.reports := rfl
@[simp] theorem setPending_displaced (q : PortState) (n : EventSet) : (q.setPending n).displaced = q.displaced := rfl
@[simp] theorem setPending_watch (q : PortState) (n : EventSet) : (q.setPending n).watch = q.watch := rfl

@[simp] theorem portPost_assembler (q : PortState) (e : Event) : (q.post e).assembler = q.assembler := rfl
@[simp] theorem portPost_frames (q : PortState) (e : Event) : (q.post e).frames = q.frames := rfl
@[simp] theorem portPost_cts (q : PortState) (e : Event) : (q.post e).cts = q.cts := rfl
@[simp] theorem portPost_discard (q : PortState) (e : Event) : (q.post e).discard = q.discard := rfl
@[simp] theorem portPost_settings (q : PortState) (e : Event) : (q.post e).settings = q.settings := rfl
@[simp] theorem portPost_reports (q : PortState) (e : Event) : (q.post e).reports = q.reports := rfl
@[simp] theorem portPost_displaced (q : PortState) (e : Event) : (q.post e).displaced = q.displaced := rfl
@[simp] theorem portPost_watch (q : PortState) (e : Event) : (q.post e).watch = q.watch := rfl

@[simp] theorem clearEvent_assembler (q : PortState) (e : Event) : (q.clearEvent e).assembler = q.assembler := rfl
@[simp] theorem clearEvent_frames (q : PortState) (e : Event) : (q.clearEvent e).frames = q.frames := rfl
@[simp] theorem clearEvent_cts (q : PortState) (e : Event) : (q.clearEvent e).cts = q.cts := rfl
@[simp] theorem clearEvent_discard (q : PortState) (e : Event) : (q.clearEvent e).discard = q.discard := rfl
@[simp] theorem clearEvent_settings (q : PortState) (e : Event) : (q.clearEvent e).settings = q.settings := rfl
@[simp] theorem clearEvent_reports (q : PortState) (e : Event) : (q.clearEvent e).reports = q.reports := rfl
@[simp] theorem clearEvent_displaced (q : PortState) (e : Event) : (q.clearEvent e).displaced = q.displaced := rfl
@[simp] theorem clearEvent_watch (q : PortState) (e : Event) : (q.clearEvent e).watch = q.watch := rfl

@[simp] theorem refreshCts_assembler (q : PortState) : (q.refreshCts).assembler = q.assembler := by simp only [PortState.refreshCts]
@[simp] theorem refreshCts_frames (q : PortState) : (q.refreshCts).frames = q.frames := by simp only [PortState.refreshCts]
@[simp] theorem refreshCts_discard (q : PortState) : (q.refreshCts).discard = q.discard := by simp only [PortState.refreshCts]
@[simp] theorem refreshCts_settings (q : PortState) : (q.refreshCts).settings = q.settings := by simp only [PortState.refreshCts]
@[simp] theorem refreshCts_pending (q : PortState) : (q.refreshCts).pending = q.pending := by simp only [PortState.refreshCts]
@[simp] theorem refreshCts_armHeld (q : PortState) : (q.refreshCts).armHeld = q.armHeld := by simp only [PortState.refreshCts]
@[simp] theorem refreshCts_armExhausted (q : PortState) : (q.refreshCts).armExhausted = q.armExhausted := by simp only [PortState.refreshCts]
@[simp] theorem refreshCts_reports (q : PortState) : (q.refreshCts).reports = q.reports := by simp only [PortState.refreshCts]
@[simp] theorem refreshCts_displaced (q : PortState) : (q.refreshCts).displaced = q.displaced := by simp only [PortState.refreshCts]
@[simp] theorem refreshCts_watch (q : PortState) : (q.refreshCts).watch = q.watch := by simp only [PortState.refreshCts]
@[simp] theorem refreshCts_sent (q : PortState) : (q.refreshCts).sent = q.sent := by simp only [PortState.refreshCts]

@[simp] theorem takeFrame_assembler (q : PortState) : (q.takeFrame).assembler = q.assembler := by simp only [PortState.takeFrame, PortState.refreshCts]
@[simp] theorem takeFrame_discard (q : PortState) : (q.takeFrame).discard = q.discard := by simp only [PortState.takeFrame, PortState.refreshCts]
@[simp] theorem takeFrame_settings (q : PortState) : (q.takeFrame).settings = q.settings := by simp only [PortState.takeFrame, PortState.refreshCts]
@[simp] theorem takeFrame_pending (q : PortState) : (q.takeFrame).pending = q.pending := by simp only [PortState.takeFrame, PortState.refreshCts]
@[simp] theorem takeFrame_armHeld (q : PortState) : (q.takeFrame).armHeld = q.armHeld := by simp only [PortState.takeFrame, PortState.refreshCts]
@[simp] theorem takeFrame_armExhausted (q : PortState) : (q.takeFrame).armExhausted = q.armExhausted := by simp only [PortState.takeFrame, PortState.refreshCts]
@[simp] theorem takeFrame_reports (q : PortState) : (q.takeFrame).reports = q.reports := by simp only [PortState.takeFrame, PortState.refreshCts]
@[simp] theorem takeFrame_displaced (q : PortState) : (q.takeFrame).displaced = q.displaced := by simp only [PortState.takeFrame, PortState.refreshCts]
@[simp] theorem takeFrame_watch (q : PortState) : (q.takeFrame).watch = q.watch := by simp only [PortState.takeFrame, PortState.refreshCts]
@[simp] theorem takeFrame_sent (q : PortState) : (q.takeFrame).sent = q.sent := by simp only [PortState.takeFrame, PortState.refreshCts]

@[simp] theorem resetLine_settings (q : PortState) : (q.resetLine).settings = q.settings := rfl
@[simp] theorem resetLine_sent (q : PortState) : (q.resetLine).sent = q.sent := rfl

/-! ### Reading after an update -/

@[simp] theorem port_onPort_self (s : State) (p : Port) (f : PortState → PortState) : (s.onPort p f).port p = f (s.port p) := by
  simp [State.onPort, State.port]

theorem port_onPort_ne (s : State) {p q : Port} (f : PortState → PortState) (h : p ≠ q) : (s.onPort p f).port q = s.port q := by
  simp only [State.onPort, State.port, Fin.getElem_fin]
  exact Vector.getElem_set_ne _ _ (fun e => h (Fin.ext e))

@[simp] theorem port_of_ports (s : State) (v : Vector PortState 4) (p : Port) : ({ s with ports := v } : State).port p = v[p] := rfl

theorem buffer_onBuffer_self (s : State) (i : Fin 8) (f : Buffer → Buffer) : (s.onBuffer i f).buffer i = f (s.buffer i) := by
  simp [State.onBuffer, State.buffer]

theorem buffer_onBuffer_ne (s : State) {i j : Fin 8} (f : Buffer → Buffer) (h : i ≠ j) : (s.onBuffer i f).buffer j = s.buffer j := by
  simp only [State.onBuffer, State.buffer, Fin.getElem_fin]
  exact Vector.getElem_set_ne _ _ (fun e => h (Fin.ext e))

@[simp] theorem buffer_advanceTakeIf (s : State) (now : Bool) (i : Fin 8) : (s.advanceTakeIf now).buffer i = s.buffer i := rfl
@[simp] theorem buffer_advanceTake (s : State) (i : Fin 8) : s.advanceTake.buffer i = s.buffer i := rfl

@[simp] theorem take_advanceTakeIf (s : State) (now : Bool) :
    (s.advanceTakeIf now).ring.take = if now then s.ring.take + 1 else s.ring.take := rfl

/-- Where the take position stands once a band is taken in DRY (R98, R156). -/
theorem take_takeDryBand (s : State) :
    s.takeDryBand.ring.take = if Config.dryMovesAtTaking then s.ring.take + 1 else s.ring.take := rfl

/-- Where the take position stands once the band consumed in DRY is freed (R98, R156). -/
theorem take_freeDryBand (s : State) (i : Fin 8) :
    (s.freeDryBand i).ring.take = if Config.dryMovesAtTaking then s.ring.take else s.ring.take + 1 := by
  show (if !Config.dryMovesAtTaking then s.ring.take + 1 else s.ring.take) = _
  cases Config.dryMovesAtTaking <;> rfl

@[simp] theorem buffer_takeDryBand (s : State) (i : Fin 8) : s.takeDryBand.buffer i = s.markBurning.buffer i := rfl

@[simp] theorem buffer_freeDryBand (s : State) (i j : Fin 8) : (s.freeDryBand i).buffer j = (s.freeBuffer i).buffer j := rfl

@[simp] theorem engine_onEngine (s : State) (f : Engine → Engine) : (s.onEngine f).engine = f s.engine := rfl

@[simp] theorem length_onJob_queue (s : State) (n : Nat) (f : Job → Job) : (s.onJob n f).queue.length = s.queue.length := by
  simp [State.onJob]

@[simp] theorem mapVec_getElem {α β : Type} {n : Nat} (f : α → β) (v : Vector α n) (i : Nat) (h : i < n) : (mapVec f v)[i] = f v[i] := by
  simp [mapVec]

@[simp] theorem port_mapPorts (s : State) (f : PortState → PortState) (p : Port) :
    ({ s with ports := mapVec f s.ports } : State).port p = f (s.port p) := by
  simp [State.port]

end Sys2Proof.Machine
end

