-- ==== Sys2Proof/Laws/Bytes.lean ====
section
/-! SUPPORT. Packing and reading back: the lengths of the packed forms and what each reader finds in them. -/

namespace Sys2Proof.Machine

@[simp] theorem length_byte1 (n : Nat) : (byte1 n).length = 1 := rfl
@[simp] theorem length_byte2 (n : Nat) : (byte2 n).length = 2 := rfl
@[simp] theorem length_byte4 (n : Nat) : (byte4 n).length = 4 := rfl
@[simp] theorem length_signed1 (n : Int) : (signed1 n).length = 1 := rfl
@[simp] theorem length_signed2 (n : Int) : (signed2 n).length = 2 := rfl
@[simp] theorem length_flag1 (b : Bool) : (flag1 b).length = 1 := by cases b <;> rfl
@[simp] theorem length_packText (t : Text) : (packText t).length = t.length + 1 := by simp [packText, Nat.add_comm]

/-- A byte read at the front. -/
@[simp] theorem natAt_cons_zero (x : Byte) (l : List Byte) : natAt (x :: l) 0 = x.toNat := rfl

/-- A byte read further on. -/
@[simp] theorem natAt_cons_succ (x : Byte) (l : List Byte) (i : Nat) : natAt (x :: l) (i + 1) = natAt l i := rfl

/-- Reading beyond a first part. -/
theorem natAt_append_right (a b : List Byte) (i : Nat) : natAt (a ++ b) (a.length + i) = natAt b i := by
  simp [natAt, List.getD_eq_getElem?_getD, List.getElem?_append_right (Nat.le_add_right a.length i)]

/-- Reading within a first part. -/
theorem natAt_append_left (a b : List Byte) (i : Nat) (h : i < a.length) : natAt (a ++ b) i = natAt a i := by
  simp [natAt, List.getD_eq_getElem?_getD, List.getElem?_append_left h]

/-- A number of one byte is read back. -/
theorem toNat_byte (n : Nat) (h : n ≤ 255) : (BitVec.ofNat 8 n).toNat = n := by
  simp only [BitVec.toNat_ofNat]; omega

/-- A flag's byte is read back. -/
@[simp] theorem natAt_flag1 (b : Bool) (l : List Byte) : natAt (flag1 b ++ l) 0 = b.toNat := by cases b <;> rfl

end Sys2Proof.Machine
end

