-- ==== Sys2Proof/Laws/Frames.lean ====
section
/-! SUPPORT. What each large shared operation may touch, said once: the state it gives is the one before with the named parts replaced. -/

namespace Sys2Proof.Machine

/-- A fold whose every step touches only what `keep` allows touches only that. -/
theorem foldl_keeps {α : Type} (same : State → State → Prop) (refl : ∀ s, same s s)
    (trans : ∀ {a b c}, same a b → same b c → same a c) {f : State → α → State} (h : ∀ s x, same s (f s x)) (l : List α) (s : State) :
    same s (l.foldl f s) := by
  induction l generalizing s with
  | nil => exact refl s
  | cons x l ih => exact trans (h s x) (ih _)

/-! ### Reports and label ends -/

/-- A completion report touches the ports alone (R76, R181). -/
theorem placeCompletion_frame (s : State) (c : Completion) : s.placeCompletion c = { s with ports := (s.placeCompletion c).ports } := by
  unfold State.placeCompletion
  exact foldl_keeps (fun s t => t = { s with ports := t.ports }) (fun _ => rfl) (fun h k => by rw [k, h])
    (fun s p => by split <;> rfl) _ s

/-- CONTRIB-REFUSED for entries that are gone touches the ports alone (R85, R86). -/
theorem refuseContribs_frame (s : State) (gone : List PoolEntry) :
    s.refuseContribs gone = { s with ports := (s.refuseContribs gone).ports } := by
  unfold State.refuseContribs
  exact foldl_keeps (fun s t => t = { s with ports := t.ports }) (fun _ => rfl) (fun h k => by rw [k, h])
    (fun s p => by split <;> rfl) _ s

/-- Entries taken out of the pool touch the pool and the ports alone (R85). -/
theorem dropEntries_frame (s : State) (out : PoolEntry → Bool) :
    s.dropEntries out = { s with pool := s.pool.filter (fun e => !out e), ports := (s.dropEntries out).ports } := by
  unfold State.dropEntries
  rw [refuseContribs_frame]

/-- A second for the pool touches the pool and the ports alone, and leaves the entries that have not reached 30 s (R85). -/
theorem poolSecond_frame (s : State) :
    s.poolSecond = { s with
      pool := (s.pool.map fun e => { e with age := e.age + 1 }).filter (fun e => e.age < 30), ports := s.poolSecond.ports } := by
  unfold State.poolSecond
  rw [dropEntries_frame]
  simp only [State.mk.injEq, and_true, true_and]
  congr 1
  funext e
  simp only [← decide_not, Nat.not_le]

/-- Settling touches the label records, the queue and the ports' watches (R72, R99). -/
theorem settle_frame (s : State) :
    s.settle = { s with labels := s.settle.labels, queue := s.settle.queue, ports := s.settle.ports } := by
  unfold State.settle
  exact foldl_keeps (fun s t => t = { s with labels := t.labels, queue := t.queue, ports := t.ports }) (fun _ => rfl)
    (fun h k => by rw [k, h]) (fun _ _ => rfl) _ { s with labels := s.labels.filter (fun l => s.holdsLabel l.job l.copy) }

/-- A label end touches the ports, the queue, the label records and the labels at the head (R72, R73, R76). -/
theorem endLabel_frame (s : State) (job copy : Nat) (o : LabelOutcome) (mismatch : Bool) :
    s.endLabel job copy o mismatch = { s with
      ports := (s.endLabel job copy o mismatch).ports, queue := (s.endLabel job copy o mismatch).queue,
      labels := (s.endLabel job copy o mismatch).labels,
      engine := { s.engine with heads := (s.endLabel job copy o mismatch).engine.heads } } := by
  unfold State.endLabel
  split
  · rw [settle_frame]
    split <;> split <;> rw [placeCompletion_frame] <;> rfl
  · rfl

/-- A flush touches the ring, the composer's label, the redo list, the label records, the queue and the ports' watches (R114, R115). -/
theorem flush_frame (s : State) (first : Option RedoEntry) :
    s.flush first = { s with
      ring := .empty, hand := none, redo := s.flushEntries first ++ s.redo, labels := (s.flush first).labels,
      queue := (s.flush first).queue, ports := (s.flush first).ports } := by
  unfold State.flush
  rw [settle_frame]

/-- The skipping of VOID bands touches the ring, the label records, the queue and the ports' watches (R113). -/
theorem skipVoid_frame (s : State) :
    s.skipVoid = { s with
      ring := s.skipVoid.ring, labels := s.skipVoid.labels, queue := s.skipVoid.queue, ports := s.skipVoid.ports } := by
  unfold State.skipVoid
  have h : ∀ (n : Nat) (s : State), ∃ r l q p, skipVoidFuel n s = { s with ring := r, labels := l, queue := q, ports := p } := by
    intro n
    induction n with
    | zero => exact fun s => ⟨_, _, _, _, rfl⟩
    | succ n ih =>
      intro s
      unfold skipVoidFuel
      split
      · split
        · obtain ⟨r, l, q, p, e⟩ := ih s.skipBand.settle
          exact ⟨r, l, q, p, by rw [e, settle_frame]; rfl⟩
        · exact ⟨_, _, _, _, rfl⟩
      · exact ⟨_, _, _, _, rfl⟩
  obtain ⟨r, l, q, p, e⟩ := h 8 s
  rw [e]

/-! ### The engine at work -/

/-- A blank line touches the line in progress alone (R134). -/
theorem startBlank_frame (s : State) : s.startBlank = { s with engine := { s.engine with line := s.startBlank.engine.line } } := by
  unfold State.startBlank
  split <;> rfl

/-- A burned line touches the line in progress alone (R129). -/
theorem startBurn_frame (s : State) (y : Nat) (bits : List Bool) :
    s.startBurn y bits = { s with engine := { s.engine with line := (s.startBurn y bits).engine.line } } := by
  unfold State.startBurn
  split <;> rfl

/-- An engine out of work touches the engine alone (R147). -/
theorem outOfWork_frame (s : State) : s.outOfWork = { s with engine := s.outOfWork.engine } := by
  unfold State.outOfWork
  split <;> rfl

/-- The look for the next work touches the engine and what the skipping of VOID bands touches (R113, R141, R147). -/
theorem lookForWork_frame (s : State) :
    s.lookForWork = { s with
      ring := s.lookForWork.ring, labels := s.lookForWork.labels, queue := s.lookForWork.queue, ports := s.lookForWork.ports,
      engine := s.lookForWork.engine } := by
  unfold State.lookForWork
  rw [skipVoid_frame]
  dsimp only
  split
  · rfl
  · rw [outOfWork_frame]

/-- The next line of a label touches the ring, the label records and the engine (R142 to R145). -/
theorem startLabelLine_frame (s : State) (h : HeadLabel) :
    s.startLabelLine h = { s with
      ring := (s.startLabelLine h).ring, labels := (s.startLabelLine h).labels, engine := (s.startLabelLine h).engine } := by
  unfold State.startLabelLine State.underrun
  dsimp only
  split
  · rw [startBlank_frame]
  · split <;> split
    all_goals first
      | (rw [startBlank_frame] <;> rfl)
      | (split
         · split
           · rw [startBurn_frame] <;> rfl
           · rfl
         · split
           · rw [startBlank_frame]; rfl
           · rfl)

/-- The line a task calls for touches the ring, the label records and the engine (R134, R141, R142). -/
theorem startMove_frame (s : State) :
    s.startMove = { s with ring := s.startMove.ring, labels := s.startMove.labels, engine := s.startMove.engine } := by
  unfold State.startMove State.beginAtHead
  split
  · rfl
  · split
    · split
      · rw [startBlank_frame]
      · rw [startLabelLine_frame]; rfl
    · rw [startBlank_frame]
  · split
    · rw [startLabelLine_frame]
    · rw [startBlank_frame]
  · rw [startBlank_frame]

/-- Going on touches the ring, the label records, the queue, the ports and the engine. -/
theorem goOn_frame (s : State) :
    s.goOn = { s with
      ring := s.goOn.ring, labels := s.goOn.labels, queue := s.goOn.queue, ports := s.goOn.ports, engine := s.goOn.engine } := by
  unfold State.goOn
  rw [startMove_frame, lookForWork_frame]

/-! ### Faults -/

/-- The entry into FAULT touches the engine, the ports, the ring, the composer, the label records, the queue and the redo list (R151). -/
theorem enterFault_frame (s : State) :
    s.enterFault = { s with
      engine := s.enterFault.engine, ports := s.enterFault.ports, ring := s.enterFault.ring, hand := s.enterFault.hand,
      labels := s.enterFault.labels, queue := s.enterFault.queue, redo := s.enterFault.redo } := by
  have h : ∀ (l : List HeadLabel) (o : HeadLabel → LabelOutcome) (s : State),
      ∃ e p q b, l.foldl (fun t h => t.endAtHead h (o h)) s = { s with engine := e, ports := p, queue := q, labels := b } := by
    intro l o
    induction l with
    | nil => exact fun s => ⟨_, _, _, _, rfl⟩
    | cons x l ih =>
      intro s
      obtain ⟨e, p, q, b, k⟩ := ih (s.endAtHead x (o x))
      refine ⟨e, p, q, b, ?_⟩
      rw [List.foldl_cons, k]
      unfold State.endAtHead
      rw [endLabel_frame]
      rfl
  unfold State.enterFault
  dsimp only
  obtain ⟨e, p, q, b, k⟩ := h (s.onEngine Engine.motorStop).engine.heads (s.onEngine Engine.motorStop).faultOutcome
    (s.onEngine Engine.motorStop)
  rw [k, flush_frame]
  rfl

/-! ### A rewrite cut by the reset input -/

/-- Each part of a cut image is the old one or the new one, but that under COUNTERS it has no form (R50, R51). -/
theorem cutAt_parts (i goal : Image) (written : ImagePart → Bool) :
    (∀ n : CounterNo, (i.cutAt goal written).counters[n] = i.counters[n] ∨ (i.cutAt goal written).counters[n] = goal.counters[n]) ∧
    ((i.cutAt goal written).scope = i.scope ∨ (i.cutAt goal written).scope = goal.scope) ∧
    ∀ n : Fin 32, (i.cutAt goal written).forms[n] = i.forms[n] ∨ (i.cutAt goal written).forms[n] = goal.forms[n] ∨
      (i.cutAt goal written).scope = .counters ∧ (i.cutAt goal written).forms[n] = none := by
  refine ⟨fun n => ?_, ?_, fun n => ?_⟩
  · simp only [Image.cutAt, Fin.getElem_fin, Vector.getElem_ofFn]
    split <;> simp
  · simp only [Image.cutAt]
    split <;> simp
  · simp only [Image.cutAt, Fin.getElem_fin, Vector.getElem_ofFn]
    by_cases h : (if written .scope = true then goal.scope else i.scope) = .counters
    · exact .inr (.inr ⟨h, if_pos h⟩)
    · rw [if_neg h]
      by_cases w : written (.form n) = true <;> simp [w]

/-- Cutting a rewrite touches the retained image and the model's counter alone; the check word stays. -/
theorem cutRewrite_frame (s : State) :
    s.cutRewrite = { s with retained := s.cutRewrite.retained, freeTick := s.cutRewrite.freeTick } ∧
      s.cutRewrite.retained.check = s.retained.check := by
  unfold State.cutRewrite
  split <;> exact ⟨rfl, rfl⟩

/-- With no rewrite under way nothing is cut. -/
theorem cutRewrite_of_none {s : State} (h : s.rewrittenImage = s.retained.image) : s.cutRewrite = s := if_pos h

end Sys2Proof.Machine
end

