-- ==== Sys2Proof/Laws/Records.lean ====
section
/-! SUPPORT. What taking a record can do: it is refused BAD-LENGTH, or its block acts on the state with the frame taken; and what the part
does while the reset input holds it. -/

namespace Sys2Proof.Machine

/-- While the part runs, an effect is made. -/
theorem running_of_not_held {s : State} (h : s.held = false) (f : State → State) : s.running f = .next (f s) := by
  simp [State.running, h]

/-- While the reset input holds the part, nothing happens. -/
theorem running_of_held {s : State} (h : s.held = true) (f : State → State) : s.running f = .next s := by
  simp [State.running, h]

/-- A record whose body is read goes to its block, on the state with its frame taken. -/
theorem record_of_parsed {α : Type} {s : State} {p : Port} {k : Kind} {body : List Byte} {parse : List Byte → Option α}
    {act : α → State → State} {r : α} (h : s.canTake p k.byte body) (hp : parse body = some r) :
    s.record p k body parse act = .next (act r (s.taken p)) := by
  simp [State.record, State.takeRecord, State.running, h.1, h.2, hp, State.taken]

/-- A record whose body is not read is refused BAD-LENGTH. -/
theorem record_of_unparsed {α : Type} {s : State} {p : Port} {k : Kind} {body : List Byte} {parse : List Byte → Option α}
    {act : α → State → State} (h : s.canTake p k.byte body) (hp : parse body = none) :
    s.record p k body parse act = .next ((s.taken p).answer p k .badLength) := by
  simp [State.record, State.takeRecord, State.running, h.1, h.2, hp, State.taken, State.answer]

/-- A record always gives a next state: one of the four cases. -/
theorem record_cases {α : Type} (s : State) (p : Port) (k : Kind) (body : List Byte) (parse : List Byte → Option α)
    (act : α → State → State) :
    s.record p k body parse act = .next s ∨
    s.record p k body parse act = .next ((s.taken p).answer p k .badLength) ∨
    ∃ r, parse body = some r ∧ s.record p k body parse act = .next (act r (s.taken p)) := by
  simp only [State.record, State.takeRecord, State.running, State.taken, State.answer]
  by_cases h : s.held = true
  · simp [h]
  · by_cases ho : (s.port p).offers k.byte body = true
    · cases hp : parse body <;> simp [h, ho]
    · simp [h, ho]

/-- Every kind byte names its kind. -/
@[simp] theorem kindOf_byte (k : Kind) : kindOf k.byte = some k := by cases k <;> rfl

end Sys2Proof.Machine
end

