-- ==== Sys2Proof/Laws/Outcome.lean ====
section
/-! SUPPORT. Every command of this part gives a next state: nothing stops it. -/

namespace Sys2Proof.Machine

/-- What an effect under `running` gives. -/
theorem running_next (s : State) (f : State → State) : ∃ t, s.running f = .next t := by
  by_cases h : s.held = true
  · exact ⟨s, running_of_held h f⟩
  · exact ⟨f s, running_of_not_held (by simpa using h) f⟩

/-- Taking a record always gives a next state. -/
theorem record_next {α : Type} (s : State) (p : Port) (k : Kind) (body : List Byte) (parse : List Byte → Option α)
    (act : α → State → State) : ∃ t, s.record p k body parse act = .next t := running_next s _

/-- Every command gives a next state. -/
theorem exec_next (c : Instr) (s : State) : ∃ t, exec c s = .next t := by
  cases c with
  | unknownKind p kind body =>
    show ∃ t, (if (kindOf kind).isSome then _ else _) = _
    split
    · exact ⟨s, rfl⟩
    · exact running_next s _
  | powerUp b l => exact ⟨_, rfl⟩
  | receiveByte | frameTimeout | lineBreak | deviceResetAssert | sensorReading | lidSwitchOpen | lidSwitchClosed | mergeTimerExpiry
  | forwardStep | strobePhaseEnd | phaseGapEnd | dotClassTimeEnd | mergeTimerSecond | poolEntryDiscard =>
    simp only [exec, execReceiveByte, execFrameTimeout, execLineBreak, execDeviceResetAssert, execSensorReading, execLidSwitchOpen,
      execLidSwitchClosed, execMergeTimerExpiry, execForwardStep, execStrobePhaseEnd, execPhaseGapEnd, execDotClassTimeEnd,
      execMergeTimerSecond, execPoolEntryDiscard]
    exact running_next s _
  | _ => exact running_next s _

/-- Every step gives a next state. -/
theorem step_next (s : State) : ∃ t, step s = .next t := by
  unfold step
  split
  · exact ⟨_, rfl⟩
  · exact exec_next _ _

end Sys2Proof.Machine
end

