-- ==== Sys2Proof/Laws/Ports.lean ====
section
/-! SUPPORT. The event vector, the report list and the receive buffer: what each operation leaves, said once. -/

namespace Sys2Proof.Machine

/-! ### Event sets -/

/-- An event added to a set (R176). -/
@[simp] theorem isIn_addTo (e e' : Event) (set : EventSet) : e'.isIn (e.addTo set) = (e'.isIn set || decide (e' = e)) := by
  cases e <;> cases e' <;> simp [Event.isIn, Event.addTo, Event.priority]

/-- An event removed from a set. -/
@[simp] theorem isIn_removeFrom (e e' : Event) (set : EventSet) : e'.isIn (e.removeFrom set) = (e'.isIn set && decide (e' ≠ e)) := by
  cases e <;> cases e' <;> simp [Event.isIn, Event.removeFrom, Event.priority]

/-- The shown event is pending, and none of higher priority is (R176). -/
theorem shownEvent_some {set : EventSet} {e : Event} (h : shownEvent set = some e) :
    e.isIn set = true ∧ ∀ e' : Event, e'.isIn set = true → e'.priority ≤ e.priority := by
  unfold shownEvent Event.all at h
  simp only [List.reverse_cons, List.reverse_nil, List.nil_append, List.cons_append, List.find?] at h
  refine ⟨?_, ?_⟩
  · repeat' split at h
    all_goals first
      | (cases h; assumption)
      | cases h
  · intro e' h'
    repeat' split at h
    all_goals first
      | cases h
    all_goals cases e' <;> simp_all [Event.priority]

/-- No event is shown of an empty set only (R176). -/
theorem shownEvent_none {set : EventSet} (h : shownEvent set = none) (e : Event) : e.isIn set = false := by
  unfold shownEvent at h
  have := List.find?_eq_none.mp h e (by cases e <;> simp [Event.all])
  simpa using this

/-! ### Reports -/

/-- A placed report is the last of the list (R179). -/
theorem place_getLast (q : PortState) (r : Report) : (q.place r).reports.getLast? = some r := by
  unfold PortState.place PortState.post PortState.setPending
  split <;> simp

/-- A list is never made longer than 12 (R179). -/
theorem place_length (q : PortState) (r : Report) (h : q.reports.length ≤ 12) : (q.place r).reports.length ≤ 12 := by
  unfold PortState.place PortState.post PortState.setPending
  split <;> simp <;> omega

/-! ### The receive buffer -/

/-- CTS as brought up to date (R167). -/
theorem ctsFor_sound (n : Nat) (b : Bool) :
    (bufferSize < n + 1040 → ctsFor n b = false) ∧ (n + 1536 ≤ bufferSize → ctsFor n b = true) := by
  unfold ctsFor
  generalize bufferSize = size
  constructor
  · intro k; rw [if_pos k]
  · intro k; rw [if_neg (by omega), if_pos k]

/-- CTS brought up to date is right for the buffer (R167). -/
theorem refreshCts_sound (q : PortState) : q.refreshCts.ctsSound := by
  have h : q.refreshCts.heldBytes = q.heldBytes := by
    simp only [PortState.heldBytes, refreshCts_assembler, refreshCts_frames]
  have c : q.refreshCts.cts = ctsFor q.heldBytes q.cts := by simp only [PortState.refreshCts]
  simp only [PortState.ctsSound, h, c]
  exact ctsFor_sound _ _

/-- A byte lost to a frame in assembly sets the overrun mark and leaves the buffer's bytes as they were (R167). -/
theorem lose_held {a a' : Assembler} {lost : Byte} (n : a.state ≠ .hunt) (h : a.lose lost = .going a') :
    a'.held = a.held ∧ a'.overrun = true := by
  have keeps : ∀ (b c : Assembler), b.state ≠ .hunt → b.take lost = .going c → c.overrun = b.overrun := by
    intro b c m k
    unfold Assembler.take at k
    rcases hs : b.state <;> simp only [hs, Assembler.afterBody] at k m
    · exact absurd rfl m
    all_goals repeat' split at k
    all_goals first
      | (cases k; rfl)
      | cases k
  unfold Assembler.lose at h
  split at h
  case h_1 b k => cases h; exact ⟨rfl, keeps { a with overrun := true } b n k⟩
  case h_2 k => exact absurd h (k _)

/-- A byte taken outside HUNT goes into the buffer and leaves the overrun mark (R165). -/
theorem take_held {a a' : Assembler} {b : Byte} (n : a.state ≠ .hunt) (h : a.take b = .going a') :
    a'.held = a.held + 1 ∧ a'.overrun = a.overrun := by
  unfold Assembler.take at h
  rcases hs : a.state <;> simp only [hs, Assembler.afterBody] at h n
  · exact absurd rfl n
  all_goals repeat' split at h
  all_goals first
    | (cases h; exact ⟨rfl, rfl⟩)
    | cases h

/-- A byte taken keeps the assembler consistent with the buffer (R165). -/
theorem take_consistent {a a' : Assembler} {b : Byte} (h : a.take b = .going a') (c : a.consistent) : a'.consistent := by
  unfold Assembler.consistent Assembler.passed Assembler.beforeBody at *
  unfold Assembler.take at h
  rcases hs : a.state <;> simp only [hs, Assembler.afterBody] at h c
  all_goals repeat' split at h
  all_goals first
    | (cases h; simp_all [Assembler.hunting]; try omega)
    | cases h

/-- A byte lost keeps the assembler consistent with the buffer (R167). -/
theorem lose_consistent {a a' : Assembler} {b : Byte} (n : a.state ≠ .hunt) (h : a.lose b = .going a') (c : a.consistent) :
    a'.consistent := by
  unfold Assembler.lose at h
  split at h
  case h_1 x k =>
    cases h
    have d := take_consistent k (show ({ a with overrun := true } : Assembler).consistent from ⟨c.1, by simp, c.2.2⟩)
    have e := take_held (a := { a with overrun := true }) n k
    refine ⟨?_, by simp [e.2], d.2.2⟩
    have := d.1
    have e1 : x.held = a.held + 1 := e.1
    show a.held ≤ x.passed
    omega
  case h_2 k => exact absurd h (k _)

end Sys2Proof.Machine
end

