-- ==== Sys2Proof/Laws/Symbols.lean ====
section
/-! SUPPORT. What the fonts give whatever the free character ROM holds (R25). -/

namespace Sys2Proof.Machine

/-- The space has no ink dot (R25). -/
@[simp] theorem glyphInk_space (font : Font) (col line : Nat) : glyphInk font 32#8 col line = false := rfl

/-- The substitute glyph's box lies in its font's cell and has a column and a line (R25). -/
theorem substituteBox_in_cell (font : Font) :
    0 < font.substituteBox.width ∧ 0 < font.substituteBox.height ∧
      font.substituteBox.left + font.substituteBox.width ≤ font.cell.1 ∧
      font.substituteBox.top + font.substituteBox.height ≤ font.cell.2 := by
  have c : 0 < font.cell.1 ∧ 0 < font.cell.2 := by cases font <;> decide
  have l := Nat.mod_lt (Config.substitute font).left c.1
  have t := Nat.mod_lt (Config.substitute font).top c.2
  have w := Nat.mod_lt (Config.substitute font).width (Nat.sub_pos_of_lt l)
  have h := Nat.mod_lt (Config.substitute font).height (Nat.sub_pos_of_lt t)
  unfold Font.substituteBox
  dsimp only
  omega

/-- A corner of the substitute glyph's box is ink, so it is not the glyph of the space (R25). -/
theorem substitute_corner_is_ink (font : Font) : font.substituteBox.ink font.substituteBox.left font.substituteBox.top = true := by
  obtain ⟨w, h, -, -⟩ := substituteBox_in_cell font
  simp only [BoxShape.ink, boxInk, le_refl, decide_true, Bool.true_and, Nat.sub_self, Bool.and_eq_true, Bool.or_eq_true, decide_eq_true_eq]
  refine ⟨⟨⟨by omega, trivial⟩, by omega⟩, ?_⟩
  by_cases b : font.substituteBox.border = 0
  · exact .inl (.inl (.inl (.inl b)))
  · exact .inl (.inl (.inl (.inr (by omega))))

/-- The substitute glyph matches the glyph of no printable character: some dot of the cell differs (R25). -/
theorem substitute_is_no_printable (font : Font) (c : Byte) (lo : 32 ≤ c.toNat) (hi : c.toNat ≤ 126) :
    ∃ col line, col < font.cell.1 ∧ line < font.cell.2 ∧ glyphInk font c col line ≠ font.substituteBox.ink col line := by
  have cell : 0 < font.cell.1 ∧ 0 < font.cell.2 := by cases font <;> decide
  by_cases space : c.toNat = 32
  · obtain ⟨w, h, x, y⟩ := substituteBox_in_cell font
    refine ⟨_, _, ?_, ?_, by rw [glyphInk, if_pos space, substitute_corner_is_ink]; decide⟩ <;> omega
  · simp only [glyphInk, if_neg space, lo, hi, decide_true, Bool.and_self, if_true, printableInk]
    by_cases same : romGivesSubstitute font c = true
    · refine ⟨0, 0, cell.1, cell.2, ?_⟩
      have at00 : Config.glyph font c 0 0 = font.substituteBox.ink 0 0 := by
        simp only [romGivesSubstitute, List.all_eq_true, List.mem_range, beq_iff_eq] at same
        exact same 0 cell.1 0 cell.2
      simp only [same, at00]
      cases font.substituteBox.ink 0 0 <;> decide
    · have found := same
      simp only [romGivesSubstitute, List.all_eq_true, List.mem_range, beq_iff_eq, not_forall] at found
      obtain ⟨col, hc, line, hl, ne⟩ := found
      refine ⟨col, line, hc, hl, ?_⟩
      rw [Bool.not_eq_true] at same
      simpa [same] using ne

end Sys2Proof.Machine
end

