-- ==== Sys2Proof/Tests/Slice0.lean ====
section
/-! SUPPORT. The model's own tests: ill-formed commands, the manual's worked figures, single steps, and for every statement a state and
operands that meet its hypotheses (`witness_…`). -/

namespace Sys2Proof.Tests

open Sys2Proof Sys2Proof.Machine

/-! ### A small machine -/

/-- A head profile of a 448-dot head. -/
def prof : HeadProfile := { dots := 448, groups := 2, sensor := 20, peel := 12, threshold := 60 }

/-- Run settings in PEEL mode. -/
def sets : RunSettings where
  darkness := 10
  speed := 100
  fireOrder := .sequential
  budget := 64
  weightB := 900
  weightC := 800
  weightD := 700
  nOn := 2
  nOff := 3
  gapLimit := 40
  tolerance := 8
  topOffset := -4
  present := .peel
  underrun := .pause

/-- A field with a number, a source and a kind part. -/
def field (n : Nat) (source : Source) (required : Bool) (part : KindPart) : Field :=
  { number := n, x := 2, y := 3, rotation := .deg90, planeByte := 1#8, inkByte := 0#8, rank := 2, source := source, required := required,
    fixedText := [], fallback := [], part := part }

/-- A box. -/
def boxField : Field := field 1 .fixed false (.box 20 30 2)

/-- A form with a box, a JOB text, a required CONTRIB(3) text and a COUNTER text. -/
def form1 : Form where
  owner := 0
  shared := true
  length := 100
  width := 64
  printPlanes := 1#4
  mergeTimeout := 5
  policy := .fallback
  fields := [boxField, field 2 .job false (.text .s 1 1 8), field 3 (.contrib 3) true (.text .s 1 1 8),
    field 4 (.counter 0 3) false (.text .s 1 1 8)]
  stencils := []

/-- A key of three characters. -/
def key1 : Text := [67#8, 45#8, 49#8]

/-- A closed job of port 0 on form 1 with its contribution, nothing composed. -/
def job7 : Job where
  number := 7
  origin := 0
  key := some key1
  form := 1
  total := 2
  composed := 0
  completed := 0
  cls := .normal
  closed := true
  operator := false
  mergeTimeout := false
  counterHold := none
  cancelled := false
  data := []
  contribs := [{ field := 3, port := 3, value := [65#8] }]
  timer := none
  marks := []

/-- Counter 0 of port 1. -/
def counter0 : Counter := { owner := 1, value := 8, step := 1, low := 1, high := 9, policy := .stop, exhausted := false }

/-- The part with profile and settings, form 1 ACTIVE, counter 0 DEFINED, job 7 queued, and the engine STOPPED. -/
def base : State := { State.reset with
  profile := some prof, settings := some sets, queue := [job7], nextJob := 7
  slots := State.reset.slots.set 0 (.active form1)
  counters := State.reset.counters.set 0 (some counter0)
  engine := { Engine.reset with mode := .stopped } }

/-- The state a next outcome carries. -/
def after (o : Host.Outcome State Fault Refusal) : State :=
  match o with
  | .next s => s
  | _ => State.reset

/-- The last reply code a port has sent. -/
def lastCode (s : State) (p : Port) : Option Byte :=
  match (s.port p).sent.getLast? with
  | some (.reply _ body) => body.head?
  | _ => none

/-! ### Ill-formed commands (R57, R58, R119, R164, R170) -/

theorem test_wf_body_too_long (body : List Byte) (h : body.length = 1025) : (Instr.feed 0 body).wellFormed = false := by
  simp [Instr.wellFormed, bodyFits, h]
theorem test_wf_body_longest (body : List Byte) (h : body.length = 1024) : (Instr.feed 0 body).wellFormed = true := by
  simp [Instr.wellFormed, bodyFits, h]
theorem test_wf_known_kind : (Instr.unknownKind 0 0x40#8 []).wellFormed = false := by decide
theorem test_wf_voltage : (Instr.sensorReading 25 401).wellFormed = false := by decide
theorem test_wf_job_zero : (Instr.mergeTimerExpiry 0).wellFormed = false := by decide
theorem test_wf_job_above : (Instr.mergeTimerSecond 4096).wellFormed = false := by decide
theorem test_wf_key : (Instr.poolEntryDiscard [97#8] 0 1).wellFormed = false := by decide
theorem test_wf_field : (Instr.poolEntryDiscard key1 0 97).wellFormed = false := by decide
theorem test_wf_dot : (Instr.dotClassTimeEnd 896).wellFormed = false := by decide

/-! ### The manual's figures -/

set_option maxRecDepth 20000 in
/-- R111, section 6.6: over the characters 1 to 9 the check value is 0x29B1. -/
theorem test_check_value : crcBits ([49#8, 50#8, 51#8, 52#8, 53#8, 54#8, 55#8, 56#8, 57#8].flatMap byteBits) = 0x29B1#16 := by decide

/-- R164: FORM-DELETE 7 on the line. -/
theorem test_frame_bytes : frameBytes Kind.formDelete.byte (byte1 7) = [0x01#8, 0x24#8, 0x00#8, 0x01#8, 0x07#8, 0xD4#8] := by decide

/-- R132: the minimum periods of 25, 150 and 200 mm/s. -/
theorem test_minimum_periods : (minimumPeriod 25 false, minimumPeriod 150 false, minimumPeriod 200 true) = (5000, 834, 1250) := by decide

/-- R133: seven eighths of 8,000, of 7,000 and of 6,125, rounded up. -/
theorem test_ramp : (rampFloor none, rampFloor (some 8000), rampFloor (some 7000), rampFloor (some 6125)) = (8000, 7000, 6125, 5360) := by
  decide

/-- Section 7.7: the class times of the worked case. -/
theorem test_class_times :
    classTimes { sets with darkness := 12, weightB := 960, weightC := 896, weightD := 832 } 41 228 = ⟨582, 546, 509, 473⟩ := by decide

/-- Section 7.8: both clamps. -/
theorem test_class_times_clamped :
    classTimes { sets with darkness := 0, weightB := 768, weightC := 640, weightD := 512 } 70 285 = ⟨165, 124, 103, 100⟩ ∧
    classTimes { sets with darkness := 31, weightB := 960, weightC := 896, weightD := 832 } (-7) 195 = ⟨1800, 1800, 1694, 1573⟩ := by
  decide

/-- Section 7.7: the required period of the worked plan, and the line's period. -/
theorem test_required_period :
    requiredPeriod [⟨0, [], 582⟩, ⟨3, [], 509⟩, ⟨2, [], 582⟩, ⟨2, [], 473⟩] = 2246 ∧
    linePeriod 2246 (minimumPeriod 100 false) (rampFloor (some 1400)) = 2246 := by decide

/-- Section 7.7: line 5 fires groups 1, 0, 3, 2 interleaved and 1, 2, 3, 0 in sequence. -/
theorem test_group_order : groupOrder .interleaved 4 5 = [1, 0, 3, 2] ∧ groupOrder .sequential 4 5 = [1, 2, 3, 0] := by decide

/-- Section 2.4: the worked symbol: its digits, its width, and the text's first column. -/
theorem test_symbol : encodedDigits true [4, 4, 1, 0] = [0, 4, 4, 1, 0, 3] ∧ symbolWidth 2 5 6 = 153 ∧ readableStart 2 153 6 = 46 := by decide

/-- Section 2.4: the first bars of the worked symbol, with and without reduction. -/
theorem test_symbol_bars :
    (barsFrom 0 0 (symbolElements 2 5 [0, 4, 4, 1, 0, 3])).take 5 = [(20, 2), (24, 2), (28, 2), (32, 2), (36, 5)] ∧
    (barsFrom 1 0 (symbolElements 2 5 [0, 4, 4, 1, 0, 3])).getLast? = some (131, 1) := by decide

/-- Section 2.3: a counter value keeps its rightmost digits or is filled out with leading zeros. -/
theorem test_counter_digits : digitsOf 3 1042 = [48#8, 52#8, 50#8] ∧ digitsOf 4 42 = [48#8, 48#8, 52#8, 50#8] := by decide

/-- Section 2.2: frame dot (0, 0) of the worked field goes to box column 71, and back. -/
theorem test_rotation : rotate .deg90 (252, 72) 0 0 = (71, 0) ∧ unrotate .deg90 (252, 72) 71 0 = some (0, 0) := by decide

/-- Section 3.4: counter 3 running out. -/
theorem test_draw_exhausts :
    let k : Counter := { owner := 0, value := 999998, step := 1, low := 100000, high := 999999, policy := .stop, exhausted := false }
    k.afterDraw = { k with value := 999999 } ∧ k.afterDraw.afterDraw = { k with value := 999999, exhausted := true } := by decide

/-- Section 6.8: the dots (148, 260), (150, 260), (150, 300) and (150, 301) after fields 1, 2, 5 and 6. -/
theorem test_three_ports_dots :
    let drawn (r : Rendered) (x y : Nat) (planes : Planes) (clears : Bool) (rank : Nat) : DrawnField :=
      { drawn := r, x := x, y := y, rotation := .deg0, planes := planes, clears := clears, rank := rank }
    let fields := [drawn (.box 400 120 0) 100 200 4#4 false 1,
      drawn (.barcode 153 100 (barsFrom 0 0 (symbolElements 2 5 [0, 4, 4, 1, 0, 3])) none) 120 210 1#4 false 3,
      drawn (.box 12 20 0) 140 250 15#4 true 2,
      drawn (.stamp 32 4 [0#32, 0xFFFFFFFF#32]) 146 300 1#4 false 3]
    [(148, 260), (150, 260), (150, 300), (150, 301)].map (fun d => composeDot fields d.1 d.2) =
      [⟨5#4, 3⟩, ⟨0#4, 2⟩, ⟨5#4, 3⟩, ⟨4#4, 1⟩] := by decide

/-! ### Witnesses: the queue and the lines -/

/-- `s.canTake` read as a decidable fact. -/
theorem canTake_of {s : State} {p : Port} {k : Byte} {body : List Byte}
    (h : (!s.held && (s.port p).offers k body) = true) : s.canTake p k body := by
  simp only [Bool.and_eq_true, Bool.not_eq_true'] at h
  exact h

theorem witness_unreadable_length : State.reset.canTake 0 Kind.feed.byte [0#8] ∧ Kind.feed.lengthFits [0#8] = false :=
  ⟨canTake_of (by decide), by decide⟩

theorem witness_unreadable_kind : (∀ k : Kind, k.byte ≠ 0x00#8) ∧ State.reset.canTake 0 0x00#8 [] :=
  ⟨by intro k; cases k <;> decide, canTake_of (by decide)⟩

theorem witness_frame_names : (Instr.feed 2 []).wellFormed = true ∧ (Instr.feed 2 []).frame? = some (2, ⟨0x40#8, []⟩) := by decide

theorem witness_frame_names_unknown :
    (Instr.unknownKind 2 0x00#8 []).wellFormed = true ∧ (Instr.unknownKind 2 0x00#8 []).frame? = some (2, ⟨0x00#8, []⟩) := by decide

theorem witness_frame_sent : PortState.reset.assembler = Assembler.hunting ∧ ([1#8, 5#8] : List Byte).length ≤ 1024 ∧
    PortState.reset.heldBytes + (([1#8, 5#8] : List Byte).length + 5) ≤ 2048 := by decide

theorem witness_line_hunt : State.reset.held = false ∧ (State.reset.port 0).assembler = Assembler.hunting ∧
    (State.reset.port 0).heldBytes < 2048 ∧ (0x02#8 : Byte) ≠ 0x01#8 := by decide

theorem witness_line_timeout :
    let s := State.reset.receive 0 0x01#8
    s.held = false ∧ (s.port 0).assembler.state ≠ .hunt := by decide

/-- A port whose frame in assembly has come to a state, 4 bytes of it held, behind complete frames. -/
def assembling (state : AssemblerState) (frames : List Frame) : State := State.reset.onPort 0 fun q => { q with
  frames := frames
  assembler := { Assembler.hunting with state := state, kind := 0x40#8, lengthHigh := 4#8, lengthLow := 0#8, held := 4 } }

/-- R165, R166: length 1,024 goes on, 1,025 is discarded; a check byte that makes the sum 0 mod 256 completes, another discards. -/
theorem witness_line_discards :
    let port := fun (state : AssemblerState) (b : Byte) => (after (exec (.receiveByte 0 b false) (assembling state []))).port 0
    (assembling .check []).held = false ∧ ((assembling .check []).port 0).heldBytes < 2048 ∧
    (port .lengthLow 0#8).assembler.state = .body ∧ (port .lengthLow 0#8).pending = 0#8 ∧
    (port .lengthLow 1#8).assembler.state = .hunt ∧ Event.lineError.isIn (port .lengthLow 1#8).pending = true ∧
    (port .check 0xBC#8).frames = [{ kind := 0x40#8, body := [] }] ∧ (port .check 0xBD#8).frames = [] ∧
    Event.lineError.isIn (port .check 0xBD#8).pending = true := by decide

/-- R167: with 2,048 bytes held the frame in assembly goes on with an overrun mark. -/
theorem witness_line_overrun :
    let long : List Frame := [{ kind := 0#8, body := List.replicate 1024 0#8 }, { kind := 0#8, body := List.replicate 1010 0#8 }]
    (∀ state, ((assembling state long).port 0).assembler.state = state ∧ 2048 ≤ ((assembling state long).port 0).heldBytes) ∧
    (assembling .kind long).held = false := by
  have size : ∀ n m : Nat, ((assembling .hunt [⟨0#8, List.replicate n 0#8⟩, ⟨0#8, List.replicate m 0#8⟩]).port 0).heldBytes =
      4 + ((n + 5) + ((m + 5) + 0)) := fun n m => by
    simp only [assembling, port_onPort_self, PortState.heldBytes, Frame.size, List.map_cons, List.map_nil, List.sum_cons, List.sum_nil,
      List.length_replicate]
  exact ⟨fun state => ⟨rfl, Nat.le_of_eq (size 1024 1010).symm⟩, rfl⟩

/-! ### Witnesses: set-up -/

theorem witness_head_profile : State.reset.canTake 0 Kind.headProfile.byte prof.body ∧ State.reset.profile = none ∧ prof.inRange = true ∧
    State.reset.engine.mode = .unset := ⟨canTake_of (by decide), by decide⟩

theorem witness_head_profile_again : base.canTake 0 Kind.headProfile.byte prof.body ∧ prof.body.length = 7 ∧ base.profile.isSome = true :=
  ⟨canTake_of (by decide), by decide⟩

theorem witness_run_settings : base.canTake 0 Kind.runSettings.byte sets.body ∧ base.profile = some prof ∧ prof.dots ≤ 896 ∧
    sets.inRange prof.dots = true ∧ sets.gapLimit ≤ 255 ∧ (base.engine.mode = .unset ∨ base.engine.mode = .stopped) ∧
    base.engine.faults = .none ∧ (∀ i, (base.buffer i).state ≠ .full ∧ (base.buffer i).state ≠ .filling) :=
  ⟨canTake_of (by decide), by decide⟩

theorem witness_retain_scope_bad : State.reset.canTake 3 Kind.retainScope.byte [2#8] ∧ 1 < (2#8 : Byte).toNat :=
  ⟨canTake_of (by decide), by decide⟩

theorem witness_retain_scope : base.canTake 3 Kind.retainScope.byte (flag1 true) := canTake_of (by decide)

theorem witness_port_settings : PortSettings.reset.filter1.pattern.length = 5 ∧ PortSettings.reset.filter2.pattern.length = 5 ∧
    State.reset.canTake 1 Kind.portSettings.byte PortSettings.reset.body := ⟨by decide, by decide, canTake_of (by decide)⟩

theorem witness_position_watch_off : base.canTake 1 Kind.positionWatch.byte (PositionWatch.body ⟨0, 0, 0⟩) :=
  canTake_of (by decide)

theorem witness_position_watch_on : base.canTake 1 Kind.positionWatch.byte (PositionWatch.body ⟨7, 2, 99⟩) ∧ base.job? 7 = some job7 ∧
    base.activeForm job7.form = some form1 ∧ 2 ≤ job7.total ∧ job7.total ≤ 999 ∧ 99 < form1.length :=
  ⟨canTake_of (by decide), by decide⟩

theorem witness_engine_query : base.canTake 2 Kind.engineQuery.byte [] := canTake_of (by decide)

theorem witness_counter_query : base.canTake 2 Kind.counterQuery.byte (byte1 0) ∧ base.counters[0] = some counter0 ∧
    base.canTake 2 Kind.counterQuery.byte (byte1 7) ∧ base.counters[7] = none ∧ base.canTake 2 Kind.counterQuery.byte (byte1 8) :=
  ⟨canTake_of (by decide), by decide, canTake_of (by decide), by decide, canTake_of (by decide)⟩

/-! ### Witnesses: forms -/

/-- A FORM-BEGIN of a number. -/
def begin (n : Nat) : FormBegin :=
  { number := n, shared := true, length := 16, width := 896, printPlanes := 1#4, mergeTimeout := 255, policy := .void }

theorem witness_form_begin_empty : State.reset.canTake 0 Kind.formBegin.byte (begin 32).body ∧ (begin 32).inRange = true ∧
    State.reset.definingSlot 0 = none ∧ State.reset.slot 32 = .empty := ⟨canTake_of (by decide), by decide⟩

theorem witness_form_begin_active :
    let s := { base with queue := [] }
    s.canTake 0 Kind.formBegin.byte (begin 1).body ∧ (begin 1).inRange = true ∧ s.definingSlot 0 = none ∧
    s.slot 1 = .active form1 ∧ form1.owner = 0 ∧ s.useCount 1 = 0 := ⟨canTake_of (by decide), by decide⟩

/-- The part with form 2 DEFINING for port 0, with a list of fields. -/
def defining (fields : List Field) : State :=
  State.reset.setSlot 2 (.defining { form1 with fields := fields, policy := .hold })

theorem witness_field_def :
    let s := defining [field 2 .job false (.text .s 1 1 8)]
    s.canTake 0 Kind.fieldDef.byte boxField.body ∧ boxField.inRange = true ∧ s.definingSlot 0 = some 2 ∧
    s.slot 2 = .defining { form1 with fields := [field 2 .job false (.text .s 1 1 8)], policy := .hold } ∧
    (∀ y ∈ [field 2 .job false (.text .s 1 1 8)], y.number ≠ boxField.number) ∧ 1 ≤ s.fieldsFree ∧
    boxField.fixedText.length + boxField.fallback.length ≤ s.textFree := ⟨canTake_of (by decide), by decide⟩

/-- A stencil of two rows. -/
def stencil1 : Stencil := { number := 1, rows := [0#32, 0xFFFFFFFF#32] }

theorem witness_stencil_def : (defining []).canTake 0 Kind.stencilDef.byte stencil1.body ∧ 1 ≤ stencil1.number ∧ stencil1.number ≤ 8 ∧
    1 ≤ stencil1.rows.length ∧ stencil1.rows.length ≤ 64 ∧ (defining []).definingSlot 0 = some 2 ∧
    (defining []).slot 2 = .defining { form1 with fields := [], policy := .hold } ∧ (∀ y ∈ form1.stencils, y.number ≠ stencil1.number) ∧
    stencil1.rows.length ≤ (defining []).rowsFree :=
  ⟨canTake_of (by decide), by decide⟩

theorem witness_form_end_complete : (defining [boxField]).canTake 0 Kind.formEnd.byte [] ∧ (defining [boxField]).definingSlot 0 = some 2 ∧
    (defining [boxField]).slot 2 = .defining { form1 with fields := [boxField], policy := .hold } ∧
    (∀ x ∈ [boxField], ∀ k w h, x.part = .stamp k w h → ∃ y ∈ form1.stencils, y.number = k) := by
  refine ⟨canTake_of (by decide), by decide, by decide, ?_⟩
  intro x hx k w h hp
  simp only [List.mem_singleton] at hx
  subst hx
  simp [boxField, field] at hp

theorem witness_form_end_incomplete : (defining []).canTake 0 Kind.formEnd.byte [] ∧ (defining []).definingSlot 0 = some 2 ∧
    (defining []).slot 2 = .defining { form1 with fields := [], policy := .hold } := ⟨canTake_of (by decide), by decide⟩

theorem witness_form_end_stamp :
    let x := field 3 (.contrib 3) false (.stamp 4 32 32)
    (defining [x]).canTake 0 Kind.formEnd.byte [] ∧ (defining [x]).definingSlot 0 = some 2 ∧
    (defining [x]).slot 2 = .defining { form1 with fields := [x], policy := .hold } ∧ x ∈ [x] ∧ x.part = .stamp 4 32 32 ∧
    ∀ y ∈ form1.stencils, y.number ≠ 4 := ⟨canTake_of (by decide), by decide⟩

theorem witness_form_delete_defining : (defining [boxField]).canTake 0 Kind.formDelete.byte (byte1 2) ∧
    (defining [boxField]).slot 2 = .defining { form1 with fields := [boxField], policy := .hold } ∧ form1.owner = 0 ∧
    (defining [boxField]).poolUsed Form.fieldsUsed ≤ fieldPool ∧
    (after (exec (.formDelete 0 (byte1 2)) (defining [boxField]))).definingSlot 0 = none := ⟨canTake_of (by decide), by decide⟩

theorem witness_form_delete :
    let s := { base with queue := [] }
    s.canTake 0 Kind.formDelete.byte (byte1 1) ∧ s.slot 1 = .active form1 ∧ form1.owner = 0 ∧ s.useCount 1 = 0 ∧
    s.poolUsed Form.fieldsUsed ≤ fieldPool := ⟨canTake_of (by decide), by decide⟩

theorem witness_form_query : base.canTake 3 Kind.formQuery.byte (byte1 1) ∧ (base.slot 1).form? = some form1 ∧ form1.fields.length ≤ 96 ∧
    form1.stencils.length ≤ 8 ∧ (∀ x ∈ form1.fields, x.fallback.length ≤ 16) ∧ base.canTake 3 Kind.formQuery.byte (byte1 0) :=
  ⟨canTake_of (by decide), by decide, by decide, by decide, by decide, canTake_of (by decide)⟩

theorem witness_form_query_slots : base.canTake 3 Kind.formQuery.byte (byte1 2) ∧ base.slot 2 = .empty ∧
    (defining [boxField]).canTake 3 Kind.formQuery.byte (byte1 2) ∧
    (defining [boxField]).slot 2 = .defining { form1 with fields := [boxField], policy := .hold } :=
  ⟨canTake_of (by decide), by decide, canTake_of (by decide), by decide⟩

/-! ### Witnesses: counters and draws -/

theorem witness_counter_set : base.canTake 1 Kind.counterSet.byte (counterSetBody 0 5 (-1) 0 999999999 .wrap) ∧
    counterInRange 5 (-1) 0 999999999 = true ∧ (∀ k, base.counters[(0 : CounterNo)] = some k → k.owner = 1) := by
  refine ⟨canTake_of (by decide), by decide, ?_⟩
  intro k h
  cases h
  rfl

theorem witness_counter_free : base.canTake 1 Kind.counterFree.byte (byte1 8) ∧ base.canTake 1 Kind.counterFree.byte (byte1 7) ∧
    base.counters[7] = none ∧ base.canTake 2 Kind.counterFree.byte (byte1 0) ∧ base.counters[0] = some counter0 ∧ counter0.owner ≠ 2 ∧
    base.canTake 1 Kind.counterFree.byte (byte1 0) ∧ counter0.owner = 1 :=
  ⟨canTake_of (by decide), canTake_of (by decide), by decide, canTake_of (by decide), by decide, by decide, canTake_of (by decide),
    by decide⟩

theorem witness_draw :
    let last := { counter0 with value := 9 }
    counter0.exhausted = false ∧ (counter0.value : Int) + counter0.step = counter0.high ∧ counter0.inLimits ∧
    (last.high : Int) < last.value + last.step ∧ last.policy = .stop ∧
    ({ last with policy := .wrap } : Counter).policy = .wrap ∧ 0 < last.step ∧
    (({ counter0 with value := 1, step := -1 } : Counter).value : Int) + -1 < counter0.low := by
  unfold Counter.inLimits; decide

/-- The base part with nothing to hold a label start back. -/
theorem witness_asking : base.held = false ∧ base.engine.mode ≠ .unset ∧ base.engine.mode ≠ .dry ∧ base.hand = none ∧ base.redo = [] ∧
    base.labels.length < 8 ∧ base.nextNewCopy = some job7 ∧ base.activeForm job7.form = some form1 ∧ form1.counters = [0] ∧
    base.counters[(0 : CounterNo)] = some counter0 ∧ counter0.exhausted = false := by decide

/-- R47: a draw that exhausts the counter posts COUNTER-EXHAUSTED to its owner. -/
theorem test_asking_exhausts :
    let last := { counter0 with value := 9 }
    let s := { base with counters := base.counters.set 0 (some last) }
    s.nextNewCopy = some job7 ∧ s.counters[(0 : CounterNo)] = some last ∧ last.exhausted = false ∧ last.afterDraw.exhausted = true ∧
    last.owner = 1 ∧ Event.counterExhausted.isIn ((after (exec .composerAsk s)).port 1).pending = true := by decide

theorem witness_asking_dry :
    let s := base.onEngine fun e => { e with mode := .dry }
    s.held = false ∧ s.engine.mode = .dry ∧ s.hand = none ∧ s.redo = [] ∧ s.labels.length < 8 ∧ s.nextNewCopy = some job7 ∧
    s.activeForm job7.form = some form1 ∧ form1.counters = [0] ∧ s.counters[(0 : CounterNo)] = some counter0 ∧
    counter0.exhausted = false := by decide

theorem witness_failed_draw :
    let s := { base with counters := base.counters.set 0 (some { counter0 with exhausted := true }) }
    s.held = false ∧ s.engine.mode ≠ .unset ∧ s.engine.mode ≠ .dry ∧ s.hand = none ∧ s.redo = [] ∧ s.labels.length < 8 ∧
    s.nextNewCopy = some job7 ∧ s.activeForm job7.form = some form1 ∧ form1.counters = [0] ∧
    s.counters[(0 : CounterNo)] = some { counter0 with exhausted := true } := by decide

theorem witness_redo :
    let s := { base with redo := [⟨7, 1, [(0, 3)]⟩] }
    s.held = false ∧ s.engine.mode ≠ .unset ∧ s.hand = none ∧ s.redo = [⟨7, 1, [(0, 3)]⟩] ∧ s.job? 7 = some job7 := by decide

/-- A start of a copy in this small machine: the counter moves on and the label holds the value. -/
theorem test_composer_ask :
    let t := after (exec .composerAsk base)
    t.counters[(0 : CounterNo)] = some { counter0 with value := 9 } ∧ t.labels.map LabelRecord.values = [[(0, 8)]] := by decide

/-! ### Witnesses: jobs -/

theorem witness_next_copy : base.nextNewCopy = some job7 ∧ base.queue = [] ++ job7 :: [] ∧ base.jobState job7 = .ready ∧
    (base.port job7.origin).settings.sequence = .strict := by decide

theorem witness_job_number : base.queue.length ≤ 16 ∧ 1 ≤ base.nextJob ∧ base.nextJob ≤ 4095 ∧ base.nextFreeNumber = 8 := by decide

theorem witness_place : ({ job7 with cls := .rush } : Job).cls = .rush ∧ job7.cls = .normal ∧
    placeJob { job7 with cls := .rush } [{ job7 with composed := 1 }, job7] =
      [{ job7 with composed := 1 }, { job7 with cls := .rush }, job7] := by decide

/-- A JOB-OPEN on form 1 under a key not queued. -/
def open1 : JobOpen := { form := 1, total := 999, cls := .rush, key := some [57#8] }

theorem witness_job_open : base.canTake 2 Kind.jobOpen.byte open1.body ∧ open1.inRange = true ∧ base.profile = some prof ∧
    base.openJob? 2 = none ∧ base.activeForm open1.form = some form1 ∧ form1.shared = true ∧ form1.width ≤ prof.dots ∧
    base.jobWithKey? [57#8] = none ∧ (∀ e ∈ base.pool, e.key ≠ [57#8]) ∧ base.queue.length < 16 ∧
    (∀ k ∈ base.queue, k.number ≠ base.nextFreeNumber) := ⟨canTake_of (by decide), by decide⟩

theorem witness_job_open_no_key :
    let f := { form1 with fields := [boxField] }
    let s := { base with slots := base.slots.set 0 (.active f) }
    let r := { open1 with key := none }
    s.canTake 0 Kind.jobOpen.byte r.body ∧ r.inRange = true ∧ s.profile = some prof ∧ s.openJob? 0 = none ∧
    s.activeForm r.form = some f ∧ f.owner = 0 ∧ f.width ≤ prof.dots ∧ (∀ x ∈ f.fields, x.source.isContrib = false) ∧
    s.queue.length < 16 ∧ (∀ k ∈ s.queue, k.number ≠ s.nextFreeNumber) := ⟨canTake_of (by decide), by decide⟩

/-- The base part with two pool entries of one key: field 3 of port 3 and field 5 of port 2. -/
def pooled : State :=
  { base with pool := [⟨[57#8], 3, 3, [66#8], 4⟩, ⟨[57#8], 2, 5, [], 29⟩] }

theorem witness_job_open_sweeps : pooled.canTake 2 Kind.jobOpen.byte open1.body ∧ open1.inRange = true ∧ pooled.profile = some prof ∧
    pooled.openJob? 2 = none ∧ pooled.activeForm open1.form = some form1 ∧ form1.shared = true ∧ form1.width ≤ prof.dots ∧
    open1.key = some [57#8] ∧ pooled.jobWithKey? [57#8] = none ∧ pooled.queue.length < 16 ∧
    (∀ k ∈ pooled.queue, k.number ≠ pooled.nextFreeNumber) := ⟨canTake_of (by decide), by decide⟩

/-- Section 5.8: the entry with a field goes into the job, the other is refused to its port. -/
theorem test_job_open_sweeps :
    let t := after (exec (.jobOpen 2 open1.body) pooled)
    (t.job? 8).map Job.contribs = some [⟨3, 3, [66#8]⟩] ∧ t.pool = [] ∧ Event.contribRefused.isIn (t.port 2).pending = true ∧
    Event.contribRefused.isIn (t.port 3).pending = false := by decide

/-- Job 7 still OPEN. -/
def opened : State := { base with queue := [{ job7 with closed := false, contribs := [] }] }

theorem witness_field_data : opened.canTake 0 Kind.fieldData.byte (fieldDataBody 2 [65#8]) ∧ (opened.port 0).discard = false ∧
    opened.openJob? 0 = some { job7 with closed := false, contribs := [] } ∧ opened.activeForm 1 = some form1 ∧
    (∃ x ∈ form1.fields, x.number = 2 ∧ x.source = .job) ∧ 1 ≤ opened.valuesFree := ⟨canTake_of (by decide), by decide⟩

theorem witness_field_data_discard :
    let s := base.onPort 1 fun q => { q with discard := true }
    s.canTake 1 Kind.fieldData.byte (fieldDataBody 255 []) ∧ (s.port 1).discard = true := ⟨canTake_of (by decide), by decide⟩

theorem witness_discard : base.canTake 0 Kind.discard.byte [] ∧ base.openJob? 0 = none ∧ opened.canTake 0 Kind.discard.byte [] ∧
    opened.openJob? 0 = some { job7 with closed := false, contribs := [] } :=
  ⟨canTake_of (by decide), by decide, canTake_of (by decide), by decide⟩

theorem witness_job_close :
    let j := { job7 with closed := false, contribs := [] }
    opened.canTake 0 Kind.jobClose.byte [] ∧ (opened.port 0).discard = false ∧ opened.openJob? 0 = some j ∧
    opened.activeForm j.form = some form1 ∧ (∀ e ∈ opened.pool, j.key ≠ some e.key) ∧
    (∀ k ∈ opened.queue, k.number = j.number → k = j) ∧ j.mergeTimeout = false ∧ j.timer = none ∧ opened.missing j = [3] ∧
    j.cancelled = false ∧ j.isHeld = false ∧ j.composed = 0 := ⟨canTake_of (by decide), by decide⟩

/-- R87: the closed job waits 5 seconds for field 3. -/
theorem test_job_close : ((after (exec (.jobClose 0 []) opened)).job? 7).map Job.timer = some (some 5) := by decide

theorem witness_job_hold : base.canTake 0 Kind.jobHold.byte (byte2 7) ∧ base.job? 7 = some job7 ∧ job7.origin = 0 ∧
    base.jobState job7 = .ready ∧ job7.operator = false := ⟨canTake_of (by decide), by decide⟩

theorem witness_job_hold_refused : base.canTake 0 Kind.jobHold.byte (byte2 0) ∧ base.canTake 0 Kind.jobHold.byte (byte2 4096) ∧
    base.canTake 0 Kind.jobHold.byte (byte2 4095) ∧ (∀ k ∈ base.queue, k.number ≠ 4095) ∧
    base.canTake 1 Kind.jobHold.byte (byte2 7) ∧ base.job? 7 = some job7 ∧ job7.origin ≠ 1 :=
  ⟨canTake_of (by decide), canTake_of (by decide), canTake_of (by decide), by decide, canTake_of (by decide), by decide⟩

theorem witness_job_hold_opened : opened.canTake 0 Kind.jobHold.byte (byte2 7) ∧
    (opened.job? 7).map opened.jobState = some .opened := ⟨canTake_of (by decide), by decide⟩

theorem witness_job_hold_draining :
    let s := { base with queue := [{ job7 with composed := 2 }] }
    s.canTake 0 Kind.jobHold.byte (byte2 7) ∧ (s.job? 7).map s.jobState = some .draining := ⟨canTake_of (by decide), by decide⟩

/-- Job 7 held by its operator. -/
def heldJob : State := { base with queue := [{ job7 with operator := true }] }

theorem witness_job_hold_again_and_release : heldJob.canTake 0 Kind.jobHold.byte (byte2 7) ∧
    heldJob.canTake 0 Kind.jobRelease.byte (byte2 7) ∧ heldJob.job? 7 = some { job7 with operator := true } ∧
    heldJob.jobState { job7 with operator := true } = .held := ⟨canTake_of (by decide), canTake_of (by decide), by decide⟩

theorem witness_job_release_refused : base.canTake 0 Kind.jobRelease.byte (byte2 0) ∧ base.canTake 0 Kind.jobRelease.byte (byte2 4096) ∧
    base.canTake 0 Kind.jobRelease.byte (byte2 4095) ∧ (∀ k ∈ base.queue, k.number ≠ 4095) ∧
    base.canTake 1 Kind.jobRelease.byte (byte2 7) ∧ base.job? 7 = some job7 ∧ job7.origin ≠ 1 :=
  ⟨canTake_of (by decide), canTake_of (by decide), canTake_of (by decide), by decide, canTake_of (by decide), by decide⟩

theorem witness_job_release_ignored : base.canTake 0 Kind.jobRelease.byte (byte2 7) ∧ base.job? 7 = some job7 ∧ job7.operator = false ∧
    opened.canTake 0 Kind.jobRelease.byte (byte2 7) ∧ (opened.job? 7).map opened.jobState = some .opened :=
  ⟨canTake_of (by decide), by decide, by decide, canTake_of (by decide), by decide⟩

theorem witness_cancel_before : base.canTake 0 Kind.jobCancel.byte (byte2 7) ∧ base.job? 7 = some job7 ∧ job7.origin = 0 ∧
    job7.cancelled = false ∧ job7.composed = 0 := ⟨canTake_of (by decide), by decide⟩

theorem witness_cancel_in_flight :
    let s := { base with queue := [{ job7 with composed := 1 }], redo := [⟨7, 1, []⟩] }
    s.canTake 0 Kind.jobCancel.byte (byte2 7) ∧ s.job? 7 = some { job7 with composed := 1 } := ⟨canTake_of (by decide), by decide⟩

theorem witness_job_query : base.canTake 1 Kind.jobQuery.byte (byte2 0) ∧ base.redo.length ≤ 255 ∧ base.queue.length ≤ 255 ∧
    base.canTake 1 Kind.jobQuery.byte (byte2 7) ∧ base.job? 7 = some job7 ∧ job7.key.getD [] = key1 ∧ key1.length ≤ 12 :=
  ⟨canTake_of (by decide), by decide, by decide, canTake_of (by decide), by decide⟩

/-! ### Witnesses: merging -/

/-- A contribution of port 3 to field 3. -/
def give (key : Text) : Contribute := { key := key, field := 3, value := [89#8] }

theorem witness_contribute : base.canTake 3 Kind.contribute.byte (give key1).body ∧ (give key1).inRange = true ∧
    base.jobWithKey? (give key1).key = some job7 ∧ base.job? job7.number = some job7 ∧ base.activeForm job7.form = some form1 ∧
    (∃ x ∈ form1.fields, x.number = 3 ∧ x.source = .contrib 3) ∧ job7.cancelled = false ∧ job7.composed = 0 ∧
    1 ≤ base.valuesFree + job7.contribLength 3 := ⟨canTake_of (by decide), by decide⟩

theorem witness_contribute_late :
    let j := { job7 with composed := 1 }
    let s := { base with queue := [j] }
    s.canTake 3 Kind.contribute.byte (give key1).body ∧ s.jobWithKey? (give key1).key = some j ∧ s.job? j.number = some j ∧
    s.activeForm j.form = some form1 ∧ (∃ x ∈ form1.fields, x.number = 3 ∧ x.source = .contrib 3) ∧ 0 < j.composed :=
  ⟨canTake_of (by decide), by decide⟩

theorem witness_contribute_pool : pooled.canTake 3 Kind.contribute.byte (give [57#8]).body ∧ (give [57#8]).inRange = true ∧
    pooled.jobWithKey? [57#8] = none ∧ base.canTake 3 Kind.contribute.byte (give [57#8]).body ∧ base.jobWithKey? [57#8] = none ∧
    base.pool = [] ∧ 1 ≤ base.valuesFree ∧ pooled.pool = [] ++ ⟨[57#8], 3, 3, [66#8], 4⟩ :: [⟨[57#8], 2, 5, [], 29⟩] ∧
    1 ≤ pooled.valuesFree + 1 := ⟨canTake_of (by decide), by decide, by decide, canTake_of (by decide), by decide⟩

theorem witness_contribute_pool_full :
    let s := { base with pool := List.replicate 24 ⟨[56#8], 3, 3, [], 0⟩ }
    s.canTake 3 Kind.contribute.byte (give [57#8]).body ∧ s.jobWithKey? [57#8] = none ∧ 24 ≤ s.pool.length ∧
    (∀ e ∈ s.pool, ¬ (e.key = [57#8] ∧ e.port = 3 ∧ e.field = 3)) := ⟨canTake_of (by decide), by decide⟩

/-- Job 7 without its contribution, its timer in its last second. -/
def waiting (policy : MergePolicy) : State :=
  { base with
    queue := [{ job7 with contribs := [], timer := some 1 }]
    slots := base.slots.set 0 (.active { form1 with policy := policy }) }

theorem witness_merge_timer (policy : MergePolicy) : (waiting policy).held = false ∧
    (waiting policy).job? 7 = some { job7 with contribs := [], timer := some 1 } ∧
    (waiting policy).activeForm 1 = some { form1 with policy := policy } := by cases policy <;> decide

/-- R89: the expiry gives field 3 its fallback mark. -/
theorem test_merge_expiry :
    ((after (exec (.mergeTimerExpiry 7) (waiting .fallback))).job? 7).map (fun j => (j.marks, j.timer)) = some ([3], none) := by decide

/-- R91: the expiry under VOID takes the job out with its report. -/
theorem test_merge_void :
    let t := after (exec (.mergeTimerExpiry 7) (waiting .void))
    t.queue = [] ∧ (t.port 0).reports.length = 1 := by decide

theorem witness_pool_second : pooled.pending = [] ∧ pooled.held = false ∧ pooled.pool.map PoolEntry.age = [4, 29] := by decide

/-- R85: the second takes the entry of age 29 out, with CONTRIB-REFUSED to port 2; the other is 5 s old. -/
theorem test_pool_second :
    let t := after (step pooled)
    t.pool.map PoolEntry.age = [5] ∧ Event.contribRefused.isIn (t.port 2).pending = true ∧ t.port 3 = pooled.port 3 := by decide

theorem witness_pool_discard_gone :
    pooled.held = false ∧ (∀ x ∈ pooled.pool, ¬ (x.key = [57#8] ∧ x.port = 3 ∧ x.field = 5)) := by decide

theorem witness_pool_discard :
    pooled.held = false ∧ ⟨[57#8], 3, 3, [66#8], 4⟩ ∈ pooled.pool ∧ ⟨[57#8], 2, 5, [], 29⟩ ∈ pooled.pool := by decide

/-! ### Witnesses: FEED and dry run -/

/-- The record of band 0 of copy 1 of job 7. -/
def band0 : BandRecord := bandRecord 7 1 0 100

/-- The record of its band 1, the last. -/
def band1 : BandRecord := bandRecord 7 1 1 100

/-- The label record of copy 1 of job 7. -/
def label1 : LabelRecord :=
  { job := 7, copy := 1, values := [(0, 8)], truncations := 0, symbolErrors := 0, masked := 0, fallbacks := 0, pauses := 0 }

/-- Copy 1 of job 7 composed, buffer 0 in a state with a band of it. -/
def banded (state : BufferState) (r : BandRecord) : State := { base with
  queue := [{ job7 with composed := 1 }], labels := [label1]
  ring := { Ring.empty with buffers := Ring.empty.buffers.set 0 { state := state, record := some r, cells := [] } } }

/-- The engine seeking an edge for the FULL band 0 of job 7's label. -/
def seekingFor7 : State := (banded .full band0).onEngine fun e => { e with mode := .registering, task := .seek }

theorem witness_cancel_skips : seekingFor7.canTake 0 Kind.jobCancel.byte (byte2 7) ∧
    seekingFor7.job? 7 = some { job7 with composed := 1 } ∧ seekingFor7.engine.mode = .registering ∧ seekingFor7.engine.task = .seek ∧
    seekingFor7.takeFull? = some band0 ∧ band0.job = 7 ∧ seekingFor7.atHead 7 1 = false := ⟨canTake_of (by decide), by decide⟩

/-- R113: the VOID band is freed at once, and the job leaves with its only label. -/
theorem test_cancel_skips :
    let t := after (exec (.jobCancel 0 (byte2 7)) seekingFor7)
    t.ring.take = 1 ∧ t.buffer 0 = Buffer.empty ∧ t.labels = [] ∧ t.queue = [] ∧ t.engine.mode = .stopped := by decide

/-- The composer fills buffer 0 with a band of job 7, the fill position behind it. -/
theorem witness_cancel_fill :
    let h : Hand := { job := 7, copy := 1, nextBand := 1, snapshot := Vector.replicate 4 ⟨15#4, 1#4⟩ }
    let s := { banded .filling band0 with hand := some h, ring := { (banded .filling band0).ring with fill := 1 } }
    let t := after (exec (.jobCancel 0 (byte2 7)) s)
    s.canTake 0 Kind.jobCancel.byte (byte2 7) ∧ s.hand = some h ∧ h.job = 7 ∧ (s.buffer 0).state = .filling ∧
    (∀ k, k ≠ 0 → (s.buffer k).state ≠ .filling) ∧ t.buffer 0 = Buffer.empty ∧ t.ring.fill = 0 := ⟨canTake_of (by decide), by decide⟩

theorem witness_cancel_paused :
    let h : HeadLabel := { job := 7, copy := 1, start := 1, length := 100, edge := none, done := 64, out := false, spoiled := false }
    let s := (banded .filling band1).onEngine fun e => { e with mode := .paused, task := .lines, heads := [h] }
    s.canTake 0 Kind.jobCancel.byte (byte2 7) ∧ s.engine.mode = .paused ∧ s.engine.heads.find? (fun x => !x.out) = some h ∧ h.job = 7 ∧
    s.label? 7 h.copy ≠ none ∧ s.settings = some sets := ⟨canTake_of (by decide), by decide⟩

theorem witness_cancel_dry :
    let h : HeadLabel := { job := 7, copy := 1, start := 0, length := 0, edge := none, done := 0, out := false, spoiled := false }
    let s := (banded .filling band1).onEngine fun e => { e with mode := .dry, heads := [h] }
    s.canTake 0 Kind.jobCancel.byte (byte2 7) ∧ s.job? 7 = some { job7 with composed := 1 } ∧ s.engine.mode = .dry ∧
    s.engine.heads = [h] ∧ (∀ i, (s.buffer i).state ≠ .burning) ∧ s.label? 7 h.copy = some label1 := ⟨canTake_of (by decide), by decide⟩

theorem witness_feed : base.canTake 1 Kind.feed.byte [] ∧ base.engine.mode = .stopped ∧ base.settings = some sets ∧
    State.reset.canTake 1 Kind.feed.byte [] ∧ State.reset.engine.mode ≠ .stopped :=
  ⟨canTake_of (by decide), by decide, by decide, canTake_of (by decide), by decide⟩

theorem witness_dry_run_on : base.canTake 1 Kind.dryRunOn.byte [] ∧ base.engine.mode = .stopped ∧ base.takeFull? = none ∧
    (banded .full band0).canTake 1 Kind.dryRunOn.byte [] ∧ (banded .full band0).engine.mode = .stopped ∧
    (banded .full band0).takeFull? = some band0 ∧ band0.void = false ∧
    State.reset.canTake 1 Kind.dryRunOn.byte [] ∧ State.reset.engine.mode ≠ .stopped :=
  ⟨canTake_of (by decide), by decide, by decide, canTake_of (by decide), by decide, by decide, by decide, canTake_of (by decide),
    by decide⟩

theorem witness_dry_run_on_void :
    let r := { band0 with void := true }
    (banded .full r).canTake 1 Kind.dryRunOn.byte [] ∧ (banded .full r).engine.mode = .stopped ∧ (banded .full r).takeFull? = some r ∧
    r.void = true ∧ ((banded .full r).buffer ((banded .full r).ring.take + 1)).state ≠ .full := ⟨canTake_of (by decide), by decide⟩

/-- A FEED starting with edges at 5 and 105: the first start is 1, the next 101. -/
theorem witness_feed_edges :
    let s := base.onEngine fun e => { e with registered := true, edges := [⟨5, some 90⟩, ⟨105, none⟩] }
    s.canTake 1 Kind.feed.byte [] ∧ s.engine.mode = .stopped ∧ s.settings = some sets ∧
    s.engine.edges.find? (fun x => decide (s.engine.hp ≤ x.pos + sets.topOffset)) = some ⟨5, some 90⟩ ∧
    s.engine.edges.find? (fun y => decide (5 < y.pos) && decide (s.engine.hp ≤ y.pos + sets.topOffset)) = some ⟨105, none⟩ ∧
    (after (exec (.feed 1 []) s)).engine.task = .feedTo 101 := ⟨canTake_of (by decide), by decide⟩

/-- A band in consumption in DRY, its line `k` next. -/
def drying (r : BandRecord) (k : Nat) : State :=
  (banded .burning r).onEngine fun e => { e with mode := .dry, dryLine := some k }

theorem witness_dry_run_off : base.canTake 0 Kind.dryRunOff.byte [] ∧ base.engine.mode ≠ .dry ∧
    (drying band0 3).canTake 0 Kind.dryRunOff.byte [] ∧ (drying band0 3).engine.mode = .dry ∧
    (drying band0 3).engine.leavingDry = false ∧ (drying band0 3).engine.dryLine = some 3 ∧
    (let s := base.onEngine fun e => { e with mode := .dry }
     s.canTake 0 Kind.dryRunOff.byte [] ∧ s.engine.mode = .dry ∧ s.engine.leavingDry = false ∧ s.engine.dryLine = none) :=
  ⟨canTake_of (by decide), by decide, canTake_of (by decide), by decide, by decide, by decide, canTake_of (by decide), by decide⟩

theorem witness_dry_run_off_again :
    let s := (drying band0 3).onEngine fun e => { e with leavingDry := true }
    s.canTake 0 Kind.dryRunOff.byte [] ∧ s.engine.mode = .dry ∧ s.engine.leavingDry = true := ⟨canTake_of (by decide), by decide⟩

theorem witness_dry_line_cancelled :
    let j := { job7 with composed := 1, cancelled := true }
    let s := { drying band0 3 with queue := [j] }
    s.held = false ∧ s.engine.mode = .dry ∧ s.engine.dryLine = some 3 ∧ s.engine.leavingDry = false ∧ s.burning? = some 0 ∧
    (s.buffer 0).record = some band0 ∧ s.job? band0.job = some j ∧ j.cancelled = true ∧ s.label? band0.job band0.copy = some label1 ∧
    (∀ x ∈ s.labels, x.job = 7 → x.copy = 1) ∧ s.redo = [] ∧
    ∀ moved : Bool, (s.buffer (if moved then s.ring.take else s.ring.take + 1)).state ≠ .full := by decide

/-- A label whose next band is not FULL yet, in DRY. -/
def dryWaiting : State := (banded .filling band1).onEngine fun e => { e with mode := .dry }

theorem witness_dry_run_off_labels : dryWaiting.canTake 0 Kind.dryRunOff.byte [] ∧ dryWaiting.engine.mode = .dry ∧
    dryWaiting.engine.leavingDry = false ∧ dryWaiting.engine.dryLine = none ∧ dryWaiting.reportsBounded ∧ dryWaiting.labels = [label1] ∧
    (∀ l ∈ dryWaiting.labels, dryWaiting.holdsLabel l.job l.copy = true) ∧ (dryWaiting.labels.map fun l => (l.job, l.copy)).Nodup ∧
    ∀ j ∈ dryWaiting.queue, j.completed + (dryWaiting.labels.filter fun l => l.job = j.number).length ≤ j.total :=
  ⟨canTake_of (by decide), by unfold State.reportsBounded; decide⟩

/-- R162: the label ends DRY with its report, and the copy counts as completed. -/
theorem test_dry_run_off_labels :
    let t := after (exec (.dryRunOff 0 []) dryWaiting)
    (t.port 0).reports.length = 1 ∧ t.labels = [] ∧ (t.job? 7).map Job.completed = some 1 ∧ t.ring = Ring.empty := by decide

theorem witness_dry_line : (drying band0 62).held = false ∧ (drying band0 62).engine.mode = .dry ∧
    (drying band0 62).engine.dryLine = some 62 ∧ (drying band0 62).burning? = some 0 ∧
    ((drying band0 62).buffer 0).record = some band0 ∧ (drying band0 62).job? band0.job = some { job7 with composed := 1 } ∧
    (∀ m ∈ (drying band0 62).queue, m.number = band0.job → m = { job7 with composed := 1 }) ∧ 62 + 1 < band0.count := by decide

theorem witness_dry_last_line : (drying band0 63).engine.mode = .dry ∧ (drying band0 63).engine.dryLine = some 63 ∧
    (drying band0 63).engine.leavingDry = false ∧
    (∀ moved : Bool, ((drying band0 63).buffer (if moved then (drying band0 63).ring.take else (drying band0 63).ring.take + 1)).state ≠
      .full) ∧
    63 + 1 = band0.count ∧ band0.last = false ∧ (drying band1 35).burning? = some 0 ∧
    (drying band1 35).engine.dryLine = some 35 ∧ ((drying band1 35).buffer 0).record = some band1 ∧ 35 + 1 = band1.count ∧
    band1.last = true ∧ (drying band1 35).label? band1.job band1.copy = some label1 := by decide

theorem witness_dry_reports : (drying band1 35).reportsBounded := by unfold State.reportsBounded; decide

/-- R157, R158: the last line of the last band leaves a band report and a completion report at the origin. -/
theorem test_dry_label_end :
    let t := after (exec .dryLineConsumed (drying band1 35))
    (t.port 0).reports.length = 2 ∧ t.labels = [] ∧ (t.job? 7).map Job.completed = some 1 := by
  unfold exec execDryLineConsumed State.consumeLine State.freeDryBand
  generalize Config.dryMovesAtTaking = b
  cases b <;> decide

/-! ### Witnesses: event vectors, reports, resets -/

/-- Three reports on port 0's list, JOB-HELD and REPORT-WAITING pending. -/
def reported : State := base.onPort 0 fun q => { q with
  pending := 0b00010010#8, reports := List.replicate 3 (.band { job := 7, copy := 1, band := 0, burned := 0, check := 0#16 }) }

theorem witness_vector_query : reported.canTake 0 Kind.vectorQuery.byte [] ∧ (reported.port 0).reports.length ≤ 12 ∧
    base.canTake 0 Kind.vectorQuery.byte [] ∧ (base.port 0).pending = 0#8 :=
  ⟨canTake_of (by decide), by decide, canTake_of (by decide), by decide⟩

/-- R178: the reply shows JOB-HELD by its number, the set and the count. -/
theorem test_vector_query :
    ((after (exec (.vectorQuery 0 []) reported)).port 0).sent = [.reply 0xC8#8 [0#8, 5#8, 0b00010010#8, 3#8]] := by decide

/-- R177: the clear of LINE-ERROR brings the enabled JOB-HELD to show, and its attention byte follows the reply. -/
theorem test_vector_query_reveals :
    let s := base.onPort 0 fun q => { q with pending := 0b01010000#8, settings := { q.settings with attention := 0b00010000#8 } }
    ((after (exec (.vectorQuery 0 []) s)).port 0).sent = [.reply 0xC8#8 [0#8, 7#8, 0b01010000#8, 0#8], .attention] := by decide

theorem witness_report_read : reported.canTake 0 Kind.reportRead.byte [] ∧ (reported.port 0).reports =
    .band { job := 7, copy := 1, band := 0, burned := 0, check := 0#16 } ::
      List.replicate 2 (.band { job := 7, copy := 1, band := 0, burned := 0, check := 0#16 }) :=
  ⟨canTake_of (by decide), by decide⟩

theorem witness_report_read_empty : base.canTake 0 Kind.reportRead.byte [] ∧ (base.port 0).reports = [] :=
  ⟨canTake_of (by decide), by decide⟩

theorem witness_place_full :
    let r := Report.band { job := 7, copy := 1, band := 0, burned := 0, check := 0#16 }
    ({ PortState.reset with reports := List.replicate 12 r } : PortState).reports.length = 12 ∧ PortState.reset.reports.length ≤ 12 := by
  decide

/-- A completion report with every number at the top of its range. -/
def fullReport : Completion where
  job := 4095
  origin := 3
  key := some (List.replicate 12 65#8)
  form := 32
  copy := 999
  total := 999
  outcome := .mergeVoid
  values := (List.range 8).map fun n => (Fin.ofNat 8 n, 999999999)
  pauses := 255
  masked := 96
  fallbacks := 96
  truncations := 96
  symbolErrors := 96
  mismatch := true

/-- R175: the longest report holds 70 bytes. -/
theorem witness_report_bytes : fullReport.job < 65536 ∧ (fullReport.key.getD []).length < 256 ∧ fullReport.form < 256 ∧
    fullReport.copy < 65536 ∧ fullReport.total < 65536 ∧ fullReport.values.length < 256 ∧ (∀ v ∈ fullReport.values, v.2 < 4294967296) ∧
    fullReport.pauses < 256 ∧ fullReport.masked < 256 ∧ fullReport.fallbacks < 256 ∧ fullReport.truncations < 256 ∧
    fullReport.symbolErrors < 256 ∧ fullReport.bytes.length = 70 := by decide

theorem witness_watches : PortSettings.reset.filter1.pattern.length = 5 ∧ PortSettings.reset.filter2.pattern.length = 5 ∧
    ({ PortSettings.reset with watch := true } : PortSettings).wants (some key1) = true ∧
    ({ PortSettings.reset with watch := true, combine := .nor } : PortSettings).wants (some key1) = false := by decide

theorem witness_port_reset : opened.held = false ∧ opened.openJob? 0 = some { job7 with closed := false, contribs := [] } ∧
    opened.openJob? 1 = none ∧ opened.definingSlot 1 = none ∧ (defining []).held = false ∧ (defining []).definingSlot 0 = some 2 ∧
    (defining []).canTake 0 Kind.portReset.byte [] := ⟨by decide, by decide, by decide, by decide, by decide, by decide,
  canTake_of (by decide)⟩

theorem witness_reset_input : base.held = false ∧ ({ base with held := true } : State).held = true ∧
    (∀ b l, Instr.feed 0 [] ≠ .powerUp b l) := ⟨by decide, by decide, fun _ _ h => by cases h⟩

/-- A COUNTER-FREE of counter 0 by its owner, or a COUNTER-QUERY of it. -/
def freeOrQuery (query : Bool) : Instr := if query then .counterQuery 1 (byte1 0) else .counterFree 1 (byte1 0)

/-- The part about to take one of these. -/
def freeing (query : Bool) : State := { base with
  retained := ({ Image.fresh with counters := base.counters } : Image).sealed, pending := [freeOrQuery query] }

theorem witness_reset_cut (query : Bool) :
    ∃ u, (freeing query).held = false ∧ (freeing query).pending = freeOrQuery query :: [] ∧
      exec (freeOrQuery query) (freeing query) = .next u ∧ (u.retained.image = (freeing query).retained.image ↔ query = true) := by
  refine ⟨after (exec (freeOrQuery query) (freeing query)), rfl, rfl, ?_, ?_⟩ <;> cases query
  · rfl
  · rfl
  · decide
  · decide

/-- R51: a rewrite under way is cut, leaving every counter but the one freed, the scope and the forms; with none, nothing is. -/
theorem test_reset_cut :
    let t (query : Bool) := after (exec (.deviceResetAssert true) (freeing query))
    (t false).freeTick = 1 ∧ (t true).freeTick = 0 ∧ (t true).retained.image = (freeing true).retained.image := by decide

theorem witness_power_up_kept : State.reset.retained.sound = true := by simp [State.reset, Retained.sound, Image.sealed]

theorem witness_power_up_lost : (true = true ∨ State.reset.retained.sound = false) ∧
    ((⟨Image.fresh, ~~~Image.fresh.sealed.check⟩ : Retained).sound = false) := by
  refine ⟨.inl rfl, ?_⟩
  simp [Retained.sound, Image.sealed]

/-! ### Witnesses: sensors, the lid, faults -/

theorem witness_sensor_reading : base.held = false ∧ base.profile = some prof ∧ base.engine.faults = .none ∧ prof.threshold ≤ 75 ∧
    45 ≤ prof.threshold ∧ (74 : Int) < (prof.threshold : Int) + 15 ∧ 190 ≤ 190 ∧ (prof.threshold : Int) + 15 ≤ 75 ∧ 189 < 190 ∧
    base.engine.mode.entersFault = true ∧ State.reset.engine.mode.entersFault = false := by decide

/-- R120, R151: 75 degrees on a 60 degree head sets OVERHEAT and hot mode, and stops the engine. -/
theorem test_overheat :
    let e := (after (exec (.sensorReading 75 240) base)).engine
    e.mode = .fault ∧ e.faults = { FaultSet.none with overheat := true } ∧ e.hot = true := by decide

/-- The part in a state of the engine with a fault set. -/
def faulted (mode : EngineMode) (f : FaultSet) : State := base.onEngine fun e => { e with mode := mode, faults := f }

theorem witness_reading_unset_dry (f : FaultSet) : (faulted .unset f).held = false ∧ (faulted .unset f).profile = some prof ∧
    (faulted .unset f).engine.mode = .unset ∧ (faulted .dry f).engine.mode = .dry := ⟨rfl, rfl, rfl, rfl⟩

/-- R150 at its edges: at T = H and V10 = 194 SUPPLY-LOW stays; at T = H and V10 = 195 nothing stays; at T = H + 1 OVERHEAT stays. -/
theorem witness_reading_fault :
    let s := faulted .fault { FaultSet.none with overheat := true, supplyLow := true }
    let left := fun (t : Int) (v : Nat) => (after (exec (.sensorReading t v) s)).engine
    s.held = false ∧ s.profile = some prof ∧ prof.threshold = 60 ∧ s.engine.mode = .fault ∧ s.engine.faults ≠ .none ∧ s.engine.heads = [] ∧
    (∀ i, (s.buffer i).state = .free) ∧ (left 60 194).faults = { FaultSet.none with supplyLow := true } ∧ (left 60 195).faults = .none ∧
    (left 60 195).mode = .stopped ∧ (left 61 195).faults = { FaultSet.none with overheat := true } := by decide

/-- R151: with HEAD-OPEN standing, T = H + 15 and V10 = 189 join it; at T = H + 14 and V10 = 190 nothing does. -/
theorem witness_reading_joins :
    let s := faulted .fault { FaultSet.none with headOpen := true }
    let set := fun (t : Int) (v : Nat) => (after (exec (.sensorReading t v) s)).engine
    s.held = false ∧ s.profile = some prof ∧ s.engine.mode = .fault ∧ (set 75 189).mode = .fault ∧
    (set 75 189).faults = { FaultSet.none with headOpen := true, overheat := true, supplyLow := true } ∧
    (set 74 190).faults = { FaultSet.none with headOpen := true } := by decide

/-- T = H and V10 = 189 clear OVERHEAT and raise SUPPLY-LOW in one reading. -/
theorem witness_reading_clears_and_raises :
    let s := faulted .fault { FaultSet.none with overheat := true }
    s.held = false ∧ s.profile = some prof ∧ s.engine.mode = .fault ∧ s.engine.faults ≠ .none ∧
    ({ s.engine.faults with overheat := s.engine.faults.overheat && decide ((prof.threshold : Int) < 60) } : FaultSet) = .none ∧
    prof.threshold = 60 := by decide

/-- Before a head profile: V10 = 194 keeps SUPPLY-LOW, 195 clears it, and T = 120 neither heats nor faults. -/
theorem witness_reading_unprofiled :
    let s := { faulted .unset { FaultSet.none with supplyLow := true } with profile := none }
    let left := fun (t : Int) (v : Nat) => (after (exec (.sensorReading t v) s)).engine
    s.held = false ∧ s.profile = none ∧ s.engine.mode = .unset ∧ (left 120 194).faults = { FaultSet.none with supplyLow := true } ∧
    (left 120 195).faults = .none ∧ (left 120 195).hot = false := by decide

theorem witness_lid_open : (banded .full band0).held = false ∧ (banded .full band0).engine.faults = .none ∧
    (banded .full band0).engine.mode ≠ .unset ∧ (banded .full band0).engine.mode ≠ .dry ∧
    (banded .full band0).engine.mode ≠ .fault := by decide

/-- UNSET and DRY without a fault, and FAULT with one; all but the last are states the closing lid finds too. -/
theorem witness_lid_set_alone : ∀ m ∈ [EngineMode.unset, .dry],
    (faulted m .none).held = false ∧ (m = .unset ∨ m = .dry ∨ m = .fault) ∧ (faulted m .none).engine.mode = m ∧ m ≠ .fault ∧
    (faulted .fault { FaultSet.none with overheat := true }).held = false ∧
    (faulted .fault { FaultSet.none with overheat := true }).engine.faults ≠ .none := by decide

theorem witness_lid_open_label : (banded .full band0).label? 7 1 = some label1 ∧ (banded .full band0).isCancelled 7 = false ∧
    (banded .full band0).inRing 7 1 = true ∧ (banded .full band0).atHead 7 1 = false := by decide

/-- Copy 1 of job 7 at the head. -/
def head1 : HeadLabel :=
  { job := 7, copy := 1, start := 1, length := 100, edge := some 5, done := 10, out := false, spoiled := false }

theorem witness_lid_open_head :
    let s := (banded .burning band0).onEngine fun e => { e with mode := .burning, task := .lines, heads := [head1] }
    s.held = false ∧ s.engine.faults = .none ∧ s.engine.mode.entersFault = true ∧ s.engine.heads = [head1] ∧ head1.out = false ∧
    head1.done < head1.length ∧ s.isCancelled head1.job = false ∧ s.label? head1.job head1.copy = some label1 := by decide

/-- R115: the label at the head goes to the front of the redo list with its values. -/
theorem test_lid_open_head :
    let s := (banded .burning band0).onEngine fun e => { e with mode := .burning, task := .lines, heads := [head1] }
    (after (exec .lidSwitchOpen s)).redo = [⟨7, 1, [(0, 8)]⟩] := by decide

/-- R115: copies 2 and 1 of job 7 in the ring from the take position 7, copy 3 in hand, copy 4 on the list: they stay in that order. -/
theorem test_lid_open_order :
    let label := fun copy => { label1 with copy := copy }
    let full := fun copy => ({ state := .full, record := some { band0 with copy := copy }, cells := [] } : Buffer)
    let s := { base with
      queue := [{ job7 with composed := 3 }], labels := [label 1, label 2, label 3], redo := [⟨7, 4, []⟩]
      hand := some { job := 7, copy := 3, nextBand := 0, snapshot := Vector.replicate 4 ⟨15#4, 1#4⟩ }
      ring := { Ring.empty with take := 7, buffers := (Ring.empty.buffers.set 7 (full 2)).set 0 (full 1) } }
    (after (exec .lidSwitchOpen s)).redo.map RedoEntry.copy = [2, 1, 3, 4] := by decide

theorem witness_lid_open_carried :
    let h := { head1 with done := 100, out := true }
    let s := { banded .filling band1 with ring := Ring.empty }.onEngine fun e =>
      { e with mode := .burning, task := .carry 113, heads := [h] }
    s.held = false ∧ s.engine.faults = .none ∧ s.engine.mode.entersFault = true ∧ s.engine.heads = [h] ∧ h.out = true ∧
    s.label? h.job h.copy = some label1 ∧ s.job? h.job = some { job7 with composed := 1 } := by decide

theorem witness_lid_closed :
    let s := base.onEngine fun e => { e with mode := .fault, faults := { FaultSet.none with noGap := true } }
    let s' := base.onEngine fun e => { e with mode := .fault, faults := { FaultSet.none with headOpen := true, overheat := true } }
    s.held = false ∧ s.engine.mode = .fault ∧ s.engine.faults ≠ .none ∧ s.engine.faults.overheat = false ∧
    s.engine.faults.supplyLow = false ∧ s.engine.heads = [] ∧ (∀ i, (s.buffer i).state = .free) ∧
    s'.held = false ∧ s'.engine.mode = .fault ∧ s'.engine.faults.overheat = true := by decide

/-! ### Witnesses: bands -/

/-- A label in hand. -/
def hand1 (nextBand : Nat) : Hand := { job := 7, copy := 1, snapshot := Vector.replicate 4 ⟨15#4, 1#4⟩, nextBand := nextBand }

theorem witness_band_take :
    let s := { base with queue := [{ job7 with composed := 1 }], labels := [label1], hand := some (hand1 1) }
    s.held = false ∧ s.hand = some (hand1 1) ∧ s.filling? = none ∧ s.job? 7 = some { job7 with composed := 1 } ∧
    s.activeForm job7.form = some form1 ∧ (s.buffer s.ring.fill).state = .free ∧ 64 * (hand1 1).nextBand < form1.length := by decide

theorem witness_band_fill (mode : EngineMode) :
    let s := { (banded .filling band0).onEngine fun e => { e with mode := mode } with hand := some (hand1 1) }
    s.held = false ∧ s.hand = some (hand1 1) ∧ s.filling? = some 0 ∧ (s.buffer 0).record = some band0 ∧
    s.job? (hand1 1).job = some { job7 with composed := 1 } ∧ s.activeForm job7.form = some form1 ∧ s.profile = some prof ∧
    s.label? (hand1 1).job (hand1 1).copy = some label1 ∧ band0.count ≤ 64 ∧ (0 : Fin 8) = s.ring.take ∧ band0.band = 0 ∧
    band0.void = false ∧ s.engine.registered = false ∧ s.settings ≠ none := by cases mode <;> decide

/-- Band `r` of the label in hand filling at buffer 0, the engine in a state, in a present mode. -/
def filling (r : BandRecord) (present : PresentMode) (f : Engine → Engine) : State :=
  { (banded .filling r).onEngine f with hand := some (hand1 1), settings := some { sets with present := present } }

/-- What every clause about the end of a fill asks for, the buffer at the take position. -/
def FillReady (s : State) (r : BandRecord) (m : EngineMode) : Prop :=
  s.held = false ∧ s.hand = some (hand1 1) ∧ s.filling? = some 0 ∧ (s.buffer 0).record = some r ∧
  s.job? 7 = some { job7 with composed := 1 } ∧ s.activeForm 1 = some form1 ∧ s.profile = some prof ∧ s.label? 7 1 = some label1 ∧
  r.count ≤ 64 ∧ (0 : Fin 8) = s.ring.take ∧ r.void = false ∧ s.engine.mode = m

/-- The edge at 5 starts at 1, one beyond HP. -/
theorem witness_fill_edge :
    let s := filling band0 .peel fun e => { e with mode := .stopped, registered := true, edges := [⟨5, none⟩] }
    FillReady s band0 .stopped ∧ s.engine.registered = true ∧ band0.band = 0 ∧
    s.engine.edges.find? (fun y => decide (s.engine.hp ≤ y.pos + s.topOffset)) = some ⟨5, none⟩ ∧ s.engine.hp < 5 + s.topOffset := by
  unfold FillReady; decide

theorem witness_fill_paused :
    let b := { head1 with done := 64 }
    let s := filling band1 .peel fun e => { e with mode := .paused, task := .lines, heads := [b] }
    FillReady s band1 .paused ∧ s.engine.heads.find? (fun x => !x.out) = some b ∧ b.spoiled = false ∧ s.isCancelled b.job = false ∧
    (∀ k, (s.buffer k).state ≠ .burning) ∧ band1.job = b.job ∧ band1.copy = b.copy ∧ band1.first ≤ b.done ∧
    b.done < band1.first + band1.count ∧ s.settings = some sets := by
  unfold FillReady; decide

theorem witness_fill_presenting :
    let s := filling band0 .tear fun e => { e with mode := .presenting }
    FillReady s band0 .presenting ∧ s.peels = false ∧ band0.band = 0 ∧ 0 < prof.peel := by
  unfold FillReady; decide

theorem witness_fill_dry :
    let s := filling band1 .peel fun e => { e with mode := .dry }
    FillReady s band1 .dry ∧ s.engine.leavingDry = false ∧ s.engine.dryLine = none := by
  unfold FillReady; decide

theorem witness_dot : 1 < (⟨3#4, 2⟩ : Cell).rank ∧ (⟨3#4, 2⟩ : Cell).rank ≤ 2 := by decide

/-- R23: the corners of a box 20 by 30 anchored at (2, 3), turned by 90. -/
theorem witness_carried :
    let d : DrawnField := { drawn := .box 20 30 2, x := 2, y := 3, rotation := .deg90, planes := 1#4, clears := false, rank := 0 }
    0 < d.drawn.frame.1 ∧ 0 < d.drawn.frame.2 ∧ 19 < d.drawn.frame.1 ∧ 29 < d.drawn.frame.2 ∧ d.inks 31 3 = true ∧ d.inks 2 22 = true ∧
    d.inks 32 3 = false ∧ d.inks 2 23 = false := by decide

/-- R28, R29: counter 0 at 8 in three digits and cut to none of them kept; copy 12 of 40. -/
theorem witness_contents :
    let c := field 4 (.counter 0 3) false (.text .s 1 1 8)
    let i := field 5 .copyIndex false (.text .s 1 1 3)
    let j := { job7 with total := 40 }
    c.source = .counter 0 3 ∧ ([(0, 1234)] : Values).find? (fun v => v.1 == (0 : CounterNo)) = some (0, 1234) ∧ i.source = .copyIndex ∧
    1 ≤ 12 ∧ 12 ≤ 999 ∧ 1 ≤ j.total ∧ j.total ≤ 999 ∧
    fieldContent j [(0, 1234)] 12 c = (some [50#8, 51#8, 52#8], true) ∧
    fieldContent j [] 12 i = (some [49#8, 50#8, 47#8, 52#8, 48#8], false) := by decide

/-- A text of two characters cut to one, at its last glyph dot and block dot; a text without content. -/
theorem witness_text :
    let f := field 1 .job false (.text .m 2 3 1)
    f.part = .text .m 2 3 1 ∧ ([65#8, 66#8] : Text) ≠ [] ∧ 0 < 1 ∧ ([65#8, 66#8] : Text)[0]? = some 65#8 ∧ 13 < Font.m.cell.1 ∧
    23 < Font.m.cell.2 ∧ 1 < 2 ∧ 2 < 3 ∧ (renderField form1 (some [65#8, 66#8], false) f).drawn.frame = (28, 72) ∧
    renderField form1 (some [], false) f = ⟨.nothing, false, false⟩ := by decide

/-- R7, R22: a job value; a contribution before the fallback text; under a mark the fallback text, unless it is empty; else nothing. -/
theorem witness_sources :
    let v := field 2 .job false (.text .s 1 1 8)
    let c := { field 3 (.contrib 3) true (.text .s 1 1 8) with fallback := [70#8] }
    let given := { job7 with data := [(2, [66#8])], marks := [3] }
    let marked := { job7 with contribs := [], marks := [3] }
    (given.data.map Prod.fst).Nodup ∧ (given.contribs.map Contribution.field).Nodup ∧ (2, [66#8]) ∈ given.data ∧ c.source = .contrib 3 ∧
    (fieldContent given [] 1 v).1 = some [66#8] ∧ (fieldContent marked [] 1 v).1 = none ∧ (fieldContent given [] 1 c).1 = some [65#8] ∧
    (fieldContent marked [] 1 c).1 = some [70#8] ∧ (fieldContent marked [] 1 { c with fallback := [] }).1 = none ∧
    (fieldContent { marked with marks := [] } [] 1 c).1 = none := by decide

/-- R7, R105: a contributed stamp draws for "Y" and for nothing else. -/
theorem witness_contributed_stamp :
    let f := field 2 (.contrib 3) false (.stamp 1 33 3)
    let form := { form1 with stencils := [{ number := 1, rows := [0x7FFFFFFF#32] }] }
    let draws := fun content => (renderField form (content, false) f).drawn.draws
    f.part = .stamp 1 33 3 ∧ f.source = .contrib 3 ∧ form.stencil? 1 = some { number := 1, rows := [0x7FFFFFFF#32] } ∧
    draws (some [89#8]) = true ∧ draws (some [78#8]) = false ∧ draws (some [89#8, 89#8]) = false ∧ draws none = false := by decide

/-- R38, R107: a box with a border of 4, and a stamp 33 by 3 of a stencil of two rows. -/
theorem witness_box_and_stamp :
    let b := field 1 .fixed false (.box 200 40 4)
    let f := field 2 .fixed false (.stamp 1 33 3)
    let form := { form1 with stencils := [{ number := 1, rows := [0x7FFFFFFF#32, 0xFFFFFFFE#32] }] }
    let ink := (renderField form (none, false) f).drawn.ink
    b.part = .box 200 40 4 ∧ (∀ p, f.source ≠ .contrib p) ∧ f.part = .stamp 1 33 3 ∧
    form.stencil? 1 = some { number := 1, rows := [0x7FFFFFFF#32, 0xFFFFFFFE#32] } ∧
    ink 0 0 = true ∧ ink 32 2 = true ∧ ink 31 1 = true ∧ ink 1 0 = false := by decide

/-- R30 to R37: 4410 with MOD10 encodes as 044103 in 153 columns; its first and last bars; in a box of 152 it overflows. -/
theorem witness_symbol :
    let f (boxWidth : Nat) := field 1 .job false (.barcode 2 5 100 true 0 true boxWidth)
    let t := [4, 4, 1, 0].map fun x => BitVec.ofNat 8 (48 + x)
    let ink := (renderField form1 (some t, false) (f 153)).drawn.ink
    t ≠ [] ∧ (∀ x ∈ [4, 4, 1, 0], x ≤ 9) ∧ 3 ≤ 9 ∧
    (3 + ((List.range 4).map fun i => (if i % 2 = 0 then 3 else 1) * [4, 4, 1, 0].reverse.getD i 0).sum) % 10 = 0 ∧
    20 * 2 + 4 * 2 + 6 / 2 * (6 * 2 + 4 * 5) + (5 + 2 * 2) = 153 ∧
    (renderField form1 (some t, false) (f 153)).drawn.frame = (153, 118) ∧
    (renderField form1 (some t, false) (f 152)).symbolError = true ∧
    (renderField form1 (some [65#8], false) (f 153)).symbolError = true ∧ (∃ c ∈ ([65#8] : Text), c.toNat < 48 ∨ 57 < c.toNat) ∧
    ink 20 99 = true ∧ ink 22 0 = false ∧ ink 132 50 = true ∧ ink 133 50 = false := by decide

/-! ### Witnesses: motion and heat -/

/-- A line fed unburned. -/
def blankLine : Line := { period := 5000, required := 0, burn := none, phases := [], strobe := .off, enabled := [] }

theorem witness_forward_step :
    let s := base.onEngine fun e => { e with mode := .registering, task := .seek, line := some blankLine }
    s.held = false ∧ s.settings = some sets ∧ s.engine.line = some blankLine ∧ s.engine.mode = .registering := by decide

/-- R133, R138, R153: one step of a FEED: HP is 1, the reading is taken at HP + S, and the next period is seven eighths of 5,000. -/
theorem test_forward_step :
    let s := base.onEngine fun e => { e with mode := .registering, task := .feedFirst, line := some blankLine }
    let e := (after (exec (.forwardStep false) s)).engine
    e.hp = 1 ∧ e.mark = 21 ∧ e.line.map Line.period = some 4375 := by decide

theorem witness_burning_begins :
    let s := (banded .full band0).onEngine fun e => { e with
      mode := .burning, task := .approach 1 5, line := some blankLine, mark := 21, registered := true, edges := [⟨5, none⟩],
      history1 := List.replicate 448 false, history2 := List.replicate 448 false }
    s.held = false ∧ s.engine.mode = .burning ∧ s.engine.line = some blankLine ∧ blankLine.burn = none ∧
    s.engine.task = .approach 1 5 ∧ (1 : Int) = s.engine.hp + 1 ∧ s.engine.heads = [] ∧
    (({ s.engine with hp := s.engine.hp + 1 } : Engine).read prof.sensor sets.nOn sets.nOff false).gapLength ≤ sets.gapLimit ∧ s.profile = some prof ∧ s.settings = some sets ∧ s.takeFull? = some band0 ∧
    band0.first = 0 ∧ 0 < band0.count ∧ band0.void = false ∧ s.burning? = none ∧
    s.job? band0.job = some { job7 with composed := 1 } ∧ s.activeForm job7.form = some form1 := by decide

/-- The part on the way to a start at 9, its engine as given. -/
def approaching (f : Engine → Engine) : State :=
  (banded .full band0).onEngine fun e => f { e with mode := .burning, task := .approach 9 13, line := some blankLine, mark := 20 }

/-- What every clause about the way to a start asks for, the next reading being taken. -/
def ApproachReady (s : State) : Prop :=
  s.held = false ∧ s.settings = some sets ∧ s.profile = some prof ∧ s.engine.mode = .burning ∧ s.engine.line = some blankLine ∧
  blankLine.burn = none ∧ s.engine.task = .approach 9 13 ∧ s.engine.hp + 1 < 9 ∧ s.engine.heads = [] ∧ s.engine.faults = .none ∧
  s.engine.mark < s.engine.hp + 1 + prof.sensor

theorem witness_approach : ApproachReady (approaching id) ∧ (approaching id).engine.gapLength < sets.gapLimit := by
  unfold ApproachReady; decide

/-- The sensor's decision, run counts, gap length, edges and registration. -/
structure Sensed where
  gap : Bool
  counts : List Nat
  edges : List Edge
  registered : Bool
  deriving DecidableEq

/-- What one step makes of the sensor. -/
def sensed (gap : Bool) (f : Engine → Engine) : Sensed :=
  let e := (after (exec (.forwardStep gap) (approaching f))).engine
  ⟨e.gap, [e.gapRun, e.labelRun, e.gapLength], e.edges, e.registered⟩

/-- R138: on a label, NON = 2: a label reading clears the run; a first gap reading counts; a second turns the decision, and measures the
last edge from the first of the two positions, 20. At a position already read nothing changes. -/
theorem test_sense_on_label :
    sensed true (fun e => { e with mark := 21, gapRun := 1 }) = ⟨false, [1, 0, 0], [], false⟩ ∧
    sensed false (fun e => { e with gapRun := 1 }) = ⟨false, [0, 0, 0], [], false⟩ ∧
    sensed true id = ⟨false, [1, 0, 0], [], false⟩ ∧
    sensed true (fun e => { e with gapRun := 1, edges := [⟨5, none⟩], registered := true }) = ⟨true, [0, 0, 1], [⟨5, some 15⟩], true⟩ ∧
    sensed true (fun e => { e with gapRun := 1, edges := [⟨5, some 15⟩], registered := true }) = ⟨true, [0, 0, 1], [⟨5, some 15⟩], true⟩ := by decide

/-- R138 to R140: in a gap, NOFF = 3: a gap reading lengthens it; label readings count; the third finds an edge at the first of the three
positions, 19, which a full list drops with registration. -/
theorem test_sense_in_gap :
    let g (run : Nat) (edges : List Edge) (e : Engine) : Engine :=
      { e with gap := true, labelRun := run, gapLength := 7, edges := edges, registered := true }
    sensed true (g 1 []) = ⟨true, [0, 0, 8], [], true⟩ ∧ sensed false (g 1 []) = ⟨true, [0, 2, 8], [], true⟩ ∧
    sensed false (g 2 (List.replicate 31 ⟨5, some 9⟩)) = ⟨false, [0, 0, 0], List.replicate 31 ⟨5, some 9⟩ ++ [⟨19, none⟩], true⟩ ∧
    sensed false (g 2 (List.replicate 32 ⟨5, some 9⟩)) = ⟨false, [0, 0, 0], [], false⟩ := by decide

/-- At a position already read, with the gap length at the limit and beyond a lowered one; and with a label being carried out, whose
record alone a full list keeps. -/
theorem witness_approach_unread_and_carrying :
    (∀ n ∈ [40, 41], let e := (approaching fun e => { e with mark := 21, gap := true, gapLength := n }).engine
      e.hp + 1 + prof.sensor ≤ e.mark ∧ e.gapLength = n) ∧
    let s := approaching fun e => { e with heads := [{ head1 with done := 100, out := true }] }
    (∀ b ∈ s.engine.heads, b.out = true ∧ (sets.present = .peel ∨ s.engine.hp + 1 < s.presentPosition b)) ∧
    sensed false (fun e => { e with
      gap := true, labelRun := 2, gapLength := 7, registered := true, heads := s.engine.heads,
      edges := ⟨5, some 9⟩ :: List.replicate 31 ⟨7, some 9⟩ }) = ⟨false, [0, 0, 0], [⟨5, some 9⟩], false⟩ := by decide

theorem witness_media_out :
    let s := approaching fun e => { e with gap := true, labelRun := 1, gapLength := 40 }
    ApproachReady s ∧ s.engine.gap = true ∧ s.engine.labelRun + 1 < sets.nOff ∧ s.engine.gapLength = sets.gapLimit := by
  unfold ApproachReady; decide

theorem witness_no_gap (count : Nat) :
    let s := (banded .full band0).onEngine fun e => { e with
      mode := .registering, task := .seek, line := some blankLine, mark := 21, feedCount := count }
    s.held = false ∧ s.settings = some sets ∧ s.engine.mode = .registering ∧ s.engine.task = .seek ∧ s.engine.line = some blankLine ∧
    blankLine.burn = none ∧ s.engine.registered = false ∧
    (let e := ({ s.engine with hp := s.engine.hp + 1 } : Engine).read (s.profile.elim 0 HeadProfile.sensor) sets.nOn sets.nOff false
     e.registered = false ∧ e.gapLength ≤ sets.gapLimit) ∧ s.engine.heads = [] ∧ s.engine.faults = .none ∧ s.takeFull? = some band0 ∧ band0.band = 0 ∧ band0.void = false ∧
    s.engine.feedCount = count := by
  exact ⟨rfl, rfl, rfl, rfl, rfl, rfl, rfl, ⟨rfl, Nat.zero_le 40⟩, rfl, rfl, rfl, rfl, rfl, rfl⟩

/-- The third label reading of a search at position 21 finds an edge at 19, whose start 15 is ahead. -/
theorem witness_search_ends :
    let s := (banded .full band0).onEngine fun e => { e with
      mode := .registering, task := .seek, line := some blankLine, mark := 20, gap := true, labelRun := 2, gapLength := 7 }
    s.held = false ∧ s.settings = some sets ∧ s.profile = some prof ∧ s.engine.mode = .registering ∧ s.engine.task = .seek ∧
    s.engine.line = some blankLine ∧ s.engine.registered = false ∧ s.engine.heads = [] ∧ s.engine.faults = .none ∧
    s.takeFull? = some band0 ∧ band0.band = 0 ∧ band0.void = false ∧ s.engine.mark < s.engine.hp + 1 + prof.sensor ∧
    s.engine.gap = true ∧ sets.nOff ≤ s.engine.labelRun + 1 ∧ s.engine.edges = [] ∧ s.engine.feedCount < 4799 ∧
    s.engine.hp + 1 < (21 - (3 - 1)) + sets.topOffset ∧
    (after (exec (.forwardStep false) s)).engine.task = .approach 15 19 := by decide

/-- A FEED under way: its next step takes a reading at 21. -/
def feeding (f : Engine → Engine) : State :=
  base.onEngine fun e => f { e with mode := .registering, line := some blankLine, mark := 20 }

/-- The engine once the next step's reading, of the label, is taken. -/
def readLabel (s : State) : Engine := ({ s.engine with hp := s.engine.hp + 1 } : Engine).read prof.sensor sets.nOn sets.nOff false

/-- What every clause about a step of a FEED asks for. -/
def FeedReady (s : State) : Prop :=
  s.held = false ∧ s.settings = some sets ∧ s.profile = some prof ∧ s.engine.mode = .registering ∧ s.engine.line = some blankLine ∧
  s.engine.heads = [] ∧ s.engine.faults = .none ∧ (readLabel s).gapLength ≤ sets.gapLimit

/-- Whether the next step takes a reading. -/
def reads (s : State) : Bool := decide (s.engine.mark < s.engine.hp + 1 + prof.sensor)

/-- Either search without an edge, at 4,798 and 4,799 lines fed before, where a reading is taken and where none is. -/
theorem witness_feed_searches : ∀ n ∈ [4798, 4799], ∀ mark ∈ [20, 21],
    let s task := feeding fun e => { e with task := task, feedCount := n, mark := mark, registered := true, edges := [⟨5, some 90⟩] }
    let first := feeding fun e => { e with task := .feedFirst, feedCount := n, mark := mark }
    FeedReady first ∧ first.engine.task = .feedFirst ∧ (readLabel first).registered = false ∧ first.engine.feedCount = n ∧
    FeedReady (s (.feedSecond 5)) ∧ (s (.feedSecond 5)).engine.task = .feedSecond 5 ∧
    (readLabel (s (.feedSecond 5))).edges.find?
      (fun x => decide ((5 : Int) < x.pos) && decide ((readLabel (s (.feedSecond 5))).hp ≤ x.pos + sets.topOffset)) = none ∧
    (reads first = false ↔ mark = 21) ∧ (reads (s .feedFirst) = false ↔ mark = 21) := by
  unfold FeedReady; decide

/-- R153: the step of a FEED that takes no reading leaves the edge list as it was; the next reading drops the record passed by. -/
theorem test_feed_chooses_at_readings :
    let edges mark := (after (exec (.forwardStep false)
      (feeding fun e => { e with task := .feedSecond 5, hp := 1, mark := mark, registered := true, edges := [⟨5, some 90⟩] }))).engine.edges
    edges 22 = [⟨5, some 90⟩] ∧ edges 21 = [] := by decide

/-- The first search with the edge at 5, alone and with one at 105; the second search likewise. -/
theorem witness_feed_found : ∀ task ∈ [Task.feedFirst, .feedSecond 5], ∀ rest ∈ [[], [(⟨105, none⟩ : Edge)]],
    let s := feeding fun e => { e with task := task, registered := true, edges := ⟨5, some 90⟩ :: rest }
    let e := readLabel s
    FeedReady s ∧ s.engine.feedCount < 4799 ∧ reads s = true ∧ e.registered = true ∧
    e.edges.find? (fun x => decide (e.hp ≤ x.pos + sets.topOffset)) = some ⟨5, some 90⟩ ∧
    e.edges.find? (fun y => decide (5 < y.pos) && decide (e.hp ≤ y.pos + sets.topOffset)) = rest.head? ∧
    (e.hp : Int) < 105 + sets.topOffset := by
  unfold FeedReady; decide

/-- R153: one line before the second start the FEED goes on, at it the engine is STOPPED. -/
theorem witness_feed_end :
    let s (target : Int) := feeding fun e => { e with task := .feedTo target }
    FeedReady (s 2) ∧ FeedReady (s 1) ∧ (readLabel (s 2)).hp < 2 ∧ (1 : Int) = (readLabel (s 1)).hp ∧
    (s 1).takeFull? = none ∧ (after (exec (.forwardStep false) (s 2))).engine.mode = .registering ∧
    (after (exec (.forwardStep false) (s 1))).engine.mode = .stopped := by
  unfold FeedReady; decide

theorem witness_feed_end_band :
    let s := (banded .full band0).onEngine fun e => { e with
      mode := .registering, line := some blankLine, mark := 20, task := .feedTo 1, registered := true, edges := [⟨105, none⟩] }
    let e := readLabel s
    FeedReady s ∧ s.engine.task = .feedTo 1 ∧ (1 : Int) = e.hp ∧ s.takeFull? = some band0 ∧ band0.band = 0 ∧ band0.void = false ∧
    e.registered = true ∧ e.edges.find? (fun x => decide (e.hp ≤ x.pos + sets.topOffset)) = some ⟨105, none⟩ ∧
    e.hp < 105 + sets.topOffset := by
  unfold FeedReady; decide

/-- The last line of band 0 on the head, band 1 not FULL yet, under an underrun policy; the next step takes a reading. -/
def underrunning (u : UnderrunPolicy) : State :=
  { banded .burning band0 with settings := some { sets with underrun := u } }.onEngine fun e =>
    { e with mode := .burning, task := .lines, line := some blankLine, mark := 20, heads := [{ head1 with done := 63 }] }

/-- What every clause about a later line asks for. -/
def LinesReady (s : State) (b : HeadLabel) (u : UnderrunPolicy) : Prop :=
  s.held = false ∧ s.engine.mode = .burning ∧ s.engine.line = some blankLine ∧ s.engine.task = .lines ∧ s.engine.heads = [b] ∧
  b.out = false ∧ s.profile = some prof ∧ s.settings = some { sets with underrun := u } ∧ (readLabel s).gapLength ≤ sets.gapLimit ∧
  reads s = true ∧ s.engine.faults = .none

/-- A line of the head's first dot, burned. -/
def dotLine : Line := { blankLine with burn := some { bits := [true], times := ⟨0, 0, 0, 0⟩ } }

/-- Job 7's label with `done` lines done before the burned line in progress, its band 0 BURNING and its band 1 FULL behind; buffer line 1 of
both burns one dot. Port 2 watches line 63. -/
def burningOn (done : Nat) (present : PresentMode) : State :=
  let cells : List (List Cell) := [[], [{ planes := 1#4, rank := 0 }]]
  let s := { underrunning .pause with
    settings := some { sets with present := present }
    ring := { Ring.empty with
      take := 1
      buffers := (Ring.empty.buffers.set 0 { state := .burning, record := some band0, cells := cells }).set 1
        { state := .full, record := some band1, cells := cells } } }
  (s.onEngine fun e => { e with line := some dotLine, heads := [{ head1 with done := done }] }).onPort 2 fun q =>
    { q with watch := some ⟨7, 1, 63⟩ }

theorem witness_later_line :
    let s := burningOn 63 .peel
    let b := { head1 with done := 63 }
    s.held = false ∧ s.engine.mode = .burning ∧ s.engine.line = some dotLine ∧ s.engine.task = .lines ∧ s.engine.heads = [b] ∧
    b.out = false ∧ s.profile = some prof ∧ s.settings = some { sets with present := .peel } ∧ (readLabel s).gapLength ≤ sets.gapLimit ∧
    s.engine.faults = .none ∧ s.job? b.job = some { job7 with composed := 1 } ∧ s.activeForm job7.form = some form1 ∧
    b.spoiled = false ∧ b.done + 1 < b.length ∧ (s.buffer 0).state = .burning ∧ (∀ k, k ≠ 0 → (s.buffer k).state ≠ .burning) ∧
    (s.buffer 0).record = some band0 ∧ band0.job = b.job ∧ band0.copy = b.copy ∧ band0.first ≤ b.done + 1 ∧
    band0.first + band0.count = b.done + 1 ∧ s.takeFull? = some band1 ∧ band1.first ≤ b.done + 1 ∧
    b.done + 1 < band1.first + band1.count ∧ (burningOn 62 .peel).engine.heads = [{ head1 with done := 62 }] ∧ 62 + 1 < band0.count := by
  decide

/-- R142, R182: line 1 burns from buffer line 1 of the BURNING band, line 65 from buffer line 1 of band 1, taken at line 64; the burned line
63 is handed to port 2's watch. -/
theorem test_later_line :
    let bits := fun done => (after (exec (.forwardStep false) (burningOn done .peel))).engine.line.bind fun l => l.burn.map Burn.bits
    let t := after (exec (.forwardStep false) (burningOn 63 .peel))
    bits 0 = some [true] ∧ bits 1 = some [] ∧ bits 63 = some [] ∧ bits 64 = some [true] ∧ t.ring.take = 2 ∧ t.buffer 0 = Buffer.empty ∧
    (t.port 2).watch = none ∧ Event.positionReached.isIn (t.port 2).pending = true := by decide

theorem witness_carried_out (present : PresentMode) :
    let s := { burningOn 99 present with ring := Ring.empty }
    let b := { head1 with done := 99 }
    s.engine.heads = [b] ∧ s.isCancelled b.job = false ∧ b.spoiled = false ∧ b.done + 1 = b.length ∧ 0 < prof.peel ∧
    s.engine.hp + 1 < b.start + (b.length : Int) + (prof.peel : Int) ∧ s.takeFull? = none ∧ s.settings = some { sets with present := present } := by
  cases present <;> decide

/-- Copy 2's band 0 waits in TEAR mode, with a usable edge at 200 or registration lost. -/
theorem witness_carried_to_the_next (held : Bool) :
    let next := { band0 with copy := 2 }
    let s := { burningOn 99 .tear with
      ring := { Ring.empty with buffers := Ring.empty.buffers.set 0 { state := .full, record := some next, cells := [] } }
      }.onEngine fun e => { e with registered := held, edges := [⟨200, none⟩] }
    s.takeFull? = some next ∧ next.band = 0 ∧ next.void = false ∧ (readLabel s).registered = held ∧
    (readLabel s).edges.find? (fun y => decide ((readLabel s).hp ≤ y.pos + sets.topOffset)) = some ⟨200, none⟩ ∧
    (readLabel s).hp < 200 + sets.topOffset ∧
    (after (exec (.forwardStep false) s)).engine.task = if held then .approach (200 + sets.topOffset) 200 else .seek := by
  cases held <;> decide

theorem witness_underrun (u : UnderrunPolicy) :
    let s := underrunning u
    let b := { head1 with done := 63 }
    LinesReady s b u ∧ s.isCancelled b.job = false ∧ b.spoiled = false ∧ b.done + 1 < b.length ∧ (s.buffer 0).state = .burning ∧
    (∀ k, k ≠ 0 → (s.buffer k).state ≠ .burning) ∧ (s.buffer 0).record = some band0 ∧ band0.first + band0.count = b.done + 1 ∧
    s.takeHas b.job b.copy (b.done + 1) = false := by
  unfold LinesReady; cases u <;> decide

/-- R143: the engine is PAUSED and the pause is counted. -/
theorem test_underrun_pauses :
    let t := after (exec (.forwardStep false) (underrunning .pause))
    t.engine.mode = .paused ∧ t.labels.map LabelRecord.pauses = [1] := by decide

theorem witness_spoiled_end :
    let b := { head1 with done := 99, spoiled := true }
    let s := (underrunning .redo).onEngine fun e => { e with heads := [b] }
    LinesReady s b .redo ∧ s.isCancelled b.job = false ∧ b.spoiled = true ∧ b.done + 1 = b.length ∧ s.job? b.job = some { job7 with composed := 1 } ∧
    s.label? b.job b.copy = some label1 := by
  unfold LinesReady; decide

theorem witness_spoiled_and_cancelled_end :
    let b := { head1 with done := 99, spoiled := true }
    let j := { job7 with composed := 1, cancelled := true }
    let s := { underrunning .redo with queue := [j] }.onEngine fun e => { e with heads := [b] }
    LinesReady s b .redo ∧ s.job? b.job = some j ∧ j.cancelled = true ∧ b.spoiled = true ∧ b.done + 1 = b.length ∧
    s.label? b.job b.copy = some label1 := by
  unfold LinesReady; decide

/-- Band 0 ending with its VOID band 1 FULL behind it, the job cancelled. -/
def cancelledAtHead (done : Nat) : State :=
  { underrunning .pause with
    queue := [{ job7 with composed := 1, cancelled := true }]
    ring := { (underrunning .pause).ring with
      take := 1
      buffers := (underrunning .pause).ring.buffers.set 1 { state := .full, record := some { band1 with void := true }, cells := [] } }
    }.onEngine fun e => { e with heads := [{ head1 with done := done }] }

theorem witness_cancelled_feeds_on :
    let b := { head1 with done := 63 }
    let s := cancelledAtHead 63
    LinesReady s b .pause ∧ s.isCancelled b.job = true ∧ b.spoiled = false ∧ b.done + 1 < b.length ∧
    s.takeFull? = some { band1 with void := true } ∧ band1.job = b.job ∧ band1.copy = b.copy ∧ band1.first ≤ b.done + 1 ∧
    b.done + 1 < band1.first + band1.count ∧ (s.buffer 0).record = some band0 ∧ band0.first + band0.count = b.done + 1 ∧
    ∀ i, (s.buffer i).state = .burning → i = 0 := by
  unfold LinesReady; decide

theorem witness_cancelled_end :
    let b := { head1 with done := 99 }
    let s := { cancelledAtHead 99 with ring := Ring.empty }
    LinesReady s b .pause ∧ s.job? b.job = some { job7 with composed := 1, cancelled := true } ∧ b.spoiled = false ∧
    b.done + 1 = b.length ∧ s.label? b.job b.copy = some label1 ∧ (∀ x ∈ s.labels, x.job = b.job → x.copy = b.copy) ∧ s.redo = [] ∧
    ∀ i, (s.buffer i).state = .free := by
  unfold LinesReady; decide

/-- R145, R73: the label ends VOIDED, and its job leaves. -/
theorem test_cancelled_end :
    let t := after (exec (.forwardStep false) { cancelledAtHead 99 with ring := Ring.empty })
    (t.port 0).reports.map (fun r => match r with | .completion c => some c.outcome | _ => none) = [some .voided] ∧ t.queue = [] := by
  decide

/-- The stages of the worked case of chapter 7 (R122 to R124): darkness 12, 41 degrees, 22.8 V. -/
theorem witness_class_stages :
    let rounds := fun a b m : Nat => 2 * b * m ≤ 2 * a + b ∧ 2 * a + b < 2 * b * (m + 1)
    (896 : Int) = max 768 (min 1280 (1024 + (25 - 41) * 8)) ∧ rounds 58982400 ((max 200 (min 280 228)) ^ 2) 1135 ∧
    rounds ((300 + 25 * 12) * 896) 1024 525 ∧ rounds (525 * 1135) 1024 582 ∧ rounds (582 * 960) 1024 546 := by decide

theorem witness_phase_plan : prof.inRange = true ∧ 1 ≤ sets.budget ∧ (List.replicate 448 true).length = prof.dots ∧
    (let t := classTimes sets 25 240; t.d ≤ t.c ∧ t.c ≤ t.b ∧ t.b ≤ t.a) :=
  ⟨by decide, by decide, List.length_replicate, by decide⟩

theorem witness_class_times : sets.weightB ≤ 1024 ∧ sets.weightC ≤ sets.weightB ∧ sets.weightD ≤ sets.weightC ∧ sets.darkness ≤ 31 := by
  decide

/-- A burned line with two phases to come. -/
def burnLine (strobe : Strobe) : Line where
  period := 5000
  required := 1000
  burn := some { bits := [true, true], times := ⟨500, 450, 420, 400⟩ }
  phases := [⟨0, [0], 500⟩, ⟨1, [1], 500⟩]
  strobe := strobe
  enabled := [0]

theorem witness_strobes (strobe : Strobe) :
    let s := base.onEngine fun e => { e with mode := .burning, task := .lines, line := some (burnLine strobe) }
    s.held = false ∧ s.engine.line = some (burnLine strobe) ∧ (burnLine strobe).strobe = strobe ∧
    (burnLine strobe).phases = ⟨0, [0], 500⟩ :: [⟨1, [1], 500⟩] := by cases strobe <;> decide

/-- Copy 1 of job 7 presented, 7 absent samples seen. -/
def presented (absent : Nat) : State :=
  { base with queue := [{ job7 with composed := 1 }], labels := [label1] }.onEngine fun e =>
    { e with mode := .presenting, absent := absent, heads := [{ head1 with done := 100, out := true }] }

theorem witness_taken_sample : (presented 7).held = false ∧ (presented 7).engine.mode = .presenting ∧ (presented 7).peels = true ∧
    (presented 7).engine.absent < 8 := by decide

theorem witness_label_taken : 7 ≤ (presented 8).engine.absent ∧ (presented 8).engine.mode = .presenting ∧ (presented 8).peels = true ∧
    (presented 8).engine.heads = [{ head1 with done := 100, out := true }] ∧
    (presented 8).job? 7 = some { job7 with composed := 1 } ∧ (presented 8).label? 7 1 = some label1 ∧
    0 < (presented 8).profile.elim 0 HeadProfile.peel ∧
    (∀ k ∈ (presented 8).queue, k.number = 7 → k = { job7 with composed := 1 }) ∧ job7.completed + 1 < job7.total := by decide

/-- Copy 1 of job 7 carried out in TEAR mode, one step from its present position; a gap reading at 133 would measure its edge. -/
def carried : State :=
  { presented 0 with settings := some { sets with present := .tear } }.onEngine fun e =>
    { e with mode := .burning, task := .carry 113, hp := 112, mark := 132, gapRun := 1, line := some blankLine, edges := [⟨5, none⟩] }

theorem witness_carry_end :
    let b := { head1 with done := 100, out := true }
    carried.held = false ∧ carried.engine.mode = .burning ∧ carried.engine.line = some blankLine ∧
    carried.engine.task = .carry (carried.engine.hp + 1) ∧ carried.engine.heads = [b] ∧ b.out = true ∧
    carried.presentPosition b = carried.engine.hp + 1 ∧ carried.profile = some prof ∧
    carried.settings = some { sets with present := .tear } ∧ (readLabel carried).gapLength ≤ sets.gapLimit ∧ reads carried = true ∧
    carried.engine.faults = .none ∧ (∀ i, (carried.buffer i).state = .free) ∧ carried.job? b.job = some { job7 with composed := 1 } ∧
    carried.label? b.job b.copy = some label1 := by decide

/-- R146, R147, R154: at 113 = 1 + 100 + 12 the label ends. A gap reading there measures it at 132 - 5 lines, which differ from 100 by
more than 8; a label reading leaves it unmeasured. -/
theorem test_carry_end :
    let flags (gap : Bool) := ((after (exec (.forwardStep gap) carried)).port 0).reports.map fun r =>
      match r with
      | .completion c => some c.mismatch
      | _ => none
    (after (exec (.forwardStep true) carried)).engine.mode = .presenting ∧ flags true = [some true] ∧ flags false = [some false] := by
  decide

/-- A head whose peel edge is at the head: the last line of a label, and the label presented. -/
theorem witness_no_peel_distance :
    let b := { head1 with done := 99 }
    let flat := some { prof with peel := 0 }
    let s := { underrunning .pause with profile := flat }.onEngine fun e => { e with heads := [b] }
    let p := { presented 7 with profile := flat }
    s.held = false ∧ s.engine.mode = .burning ∧ s.engine.line = some blankLine ∧ s.engine.task = .lines ∧ s.engine.heads = [b] ∧
    b.out = false ∧ b.spoiled = false ∧ s.isCancelled b.job = false ∧ b.done + 1 = b.length ∧ s.settings = some sets ∧
    sets.present = .peel ∧ s.engine.faults = .none ∧ (readLabel s).gapLength ≤ sets.gapLimit ∧
    p.held = false ∧ p.engine.mode = .presenting ∧ p.peels = true ∧ 7 ≤ p.engine.absent ∧ p.job? 7 = some { job7 with composed := 1 } ∧
    p.label? 7 1 = some label1 ∧ p.profile.elim 0 HeadProfile.peel = 0 ∧ (∀ i, (p.buffer i).state = .free) := by decide

theorem witness_back_feed (left : Nat) :
    let s := base.onEngine fun e => { e with mode := .retracting, backLeft := left + 1, backPeriod := 8000 }
    s.held = false ∧ s.engine.mode = .retracting ∧ s.engine.backLeft = left + 1 ∧ (∀ i, (s.buffer i).state = .free) ∧
    s.engine.heads = [] := ⟨rfl, rfl, rfl, fun i => by fin_cases i <;> rfl, rfl⟩

/-! ### Witnesses: the invariants -/

/-- The base part with its counters retained and a FEED waiting. -/
def kept : State :=
  { base with retained := ({ Image.fresh with counters := base.counters } : Image).sealed, pending := [.feed 0 []] }

theorem witness_step : ∃ t, step kept = .next t := step_next kept

theorem witness_capacities : kept.reportsBounded ∧ kept.queueBounded ∧ kept.poolBounded ∧ kept.edgesBounded := by
  unfold State.reportsBounded State.queueBounded State.poolBounded State.edgesBounded
  decide

theorem witness_more_capacities : kept.labelsBounded ∧ kept.valuesBounded ∧ kept.formPoolsBounded ∧ pooled.valuesUsed = 2 := by
  unfold State.labelsBounded State.valuesBounded State.formPoolsBounded
  decide

/-- Names stay distinct with a job that has a contribution, two pool entries of one key, and a form with four fields. -/
theorem witness_names : pooled.namesDistinct := by
  refine ⟨by decide, by unfold Job.fieldsDistinct; decide, by decide, by decide, fun i => ⟨?_, ?_⟩⟩
  · unfold Form.numbersDistinct
    fin_cases i
    · rintro _ ⟨⟩; decide
    all_goals rintro _ ⟨⟩
  · unfold Form.numbersDistinct
    fin_cases i <;> rintro _ ⟨⟩

theorem witness_counters_in_limits : kept.countersInLimits := by
  have h : ∀ c : CounterNo, ∀ k, kept.counters[c] = some k → k.inLimits := by
    unfold Counter.inLimits
    intro c k
    fin_cases c
    · rintro ⟨⟩; decide
    all_goals rintro ⟨⟩
  exact fun c => ⟨h c, h c⟩

theorem witness_image_follows : kept.imageFollows ∧ kept.retained.sound = true ∧
    (∀ rest, kept.pending ≠ .deviceResetAssert true :: rest) := by
  have empty : ∀ i : Fin 32, kept.retained.image.forms[i] = none := by decide
  refine ⟨⟨fun _ => empty, fun i f h => ?_, fun _ => ⟨rfl, fun h => ?_⟩⟩, by simp [kept, Retained.sound, Image.sealed], ?_⟩
  · rw [empty i] at h; cases h
  · cases h
  · intro rest h; cases h

theorem witness_buffers_and_cts : kept.buffersSound ∧ kept.ctsRight := by
  unfold State.buffersSound State.ctsRight PortState.bufferSound PortState.ctsSound Assembler.consistent Assembler.passed Assembler.beforeBody
  decide

theorem witness_engine_sound : kept.engine.sound := by
  refine ⟨⟨⟨rfl, rfl⟩, ?_⟩, rfl⟩
  rintro l ⟨⟩

/-- An engine that burns a line. -/
def burningEngine : Engine := { Engine.reset with mode := .burning, task := .lines, line := some (burnLine .on) }

theorem witness_engine_heats : burningEngine.sound ∧ burningEngine.heats = true := by
  refine ⟨⟨⟨trivial, ?_⟩, rfl⟩, by decide⟩
  rintro l ⟨⟩
  exact ⟨by rintro ⟨⟩, fun _ => rfl⟩

/-- As table 10.7 at a smaller scale: of a 14-byte CONTRIBUTE, 7 bytes in, 3 lost and 4 in; the lost bytes count as places of the frame,
which is discarded at its check byte though the sum is made right. -/
theorem test_lost_frame :
    let a : Assembler := { Assembler.hunting with state := .body, kind := 0x38#8, lengthLow := 9#8, body := [0#8, 0#8, 0#8], held := 7 }
    let next (r : Assembly) : Assembler := match r with | .going b => b | _ => Assembler.hunting
    let b := [0#8, 0#8].foldl (fun a c => next (a.take c)) ([0#8, 0#8, 0#8].foldl (fun a c => next (a.lose c)) a)
    b.state = .body ∧ b.held = 9 ∧ b.overrun = true ∧ (next (b.take 0#8)).take 0xBF#8 = .discarded := by decide

end Sys2Proof.Tests
end

section
/-! PROOFS. The relation of states under which every capacity is kept because nothing grows: its order, and the updates that have it. -/

namespace Sys2Proof.Machine

/-! ### What the names and the value store see -/

/-- What the names and the value store see of a job (R55, R60). -/
def Job.core (j : Job) : Nat × Option Text × List (Nat × Text) × List Contribution := (j.number, j.key, j.data, j.contribs)

/-- A pool entry without its age (R83). -/
def PoolEntry.core (e : PoolEntry) : Text × Port × Nat × Text := (e.key, e.port, e.field, e.value)

/-- From one state to the next nothing that has a capacity grows: the queue and the pool lose entries at most, and of the jobs and entries
kept their names and values stay; forms, counters and the retained image stay. -/
structure State.Shrinks (s t : State) : Prop where
  reports  : s.reportsBounded → t.reportsBounded
  queue    : (t.queue.map Job.core).Sublist (s.queue.map Job.core)
  pool     : (t.pool.map PoolEntry.core).Sublist (s.pool.map PoolEntry.core)
  edges    : s.edgesBounded → t.edgesBounded
  inFlight : t.labelsInFlight ≤ s.labelsInFlight
  slots    : t.slots = s.slots
  counters : t.counters = s.counters
  image    : t.retained.image = s.retained.image

namespace State.Shrinks

theorem refl (s : State) : s.Shrinks s := ⟨id, .refl _, .refl _, id, le_rfl, rfl, rfl, rfl⟩

theorem trans {a b c : State} (h : a.Shrinks b) (k : b.Shrinks c) : a.Shrinks c where
  reports := k.reports ∘ h.reports
  queue := k.queue.trans h.queue
  pool := k.pool.trans h.pool
  edges := k.edges ∘ h.edges
  inFlight := k.inFlight.trans h.inFlight
  slots := k.slots.trans h.slots
  counters := k.counters.trans h.counters
  image := k.image.trans h.image

/-- An update of none of the parts that have a capacity. -/
theorem of_eq {s t : State} (ports : t.ports = s.ports := by rfl) (queue : t.queue = s.queue := by rfl)
    (pool : t.pool = s.pool := by rfl) (edges : t.engine.edges = s.engine.edges := by rfl)
    (labels : t.labels.length = s.labels.length := by rfl) (redo : t.redo.length = s.redo.length := by rfl)
    (slots : t.slots = s.slots := by rfl) (counters : t.counters = s.counters := by rfl)
    (image : t.retained.image = s.retained.image := by rfl) : s.Shrinks t where
  reports h p := by simpa only [State.port, ports] using h p
  queue := by rw [queue]
  pool := by rw [pool]
  edges h := by simpa only [State.edgesBounded, edges] using h
  inFlight := by simp only [State.labelsInFlight, labels, redo, le_refl]
  slots := slots
  counters := counters
  image := image

/-- An update of the ports that makes no report list longer than it may be (R179). -/
theorem of_ports {s : State} {v : Vector PortState 4} (h : s.reportsBounded → { s with ports := v }.reportsBounded) :
    s.Shrinks { s with ports := v } :=
  { of_eq (s := s) (t := { s with ports := s.ports }) with reports := h }

/-- An update of one port that makes no report list longer than it may be (R179). -/
theorem onPort {s : State} {p : Port} {f : PortState → PortState}
    (h : (s.port p).reports.length ≤ 12 → (f (s.port p)).reports.length ≤ 12) : s.Shrinks (s.onPort p f) := by
  refine of_ports fun b q => ?_
  change ((s.onPort p f).port q).reports.length ≤ 12
  by_cases e : q = p
  · subst e
    simpa using h (b q)
  · rw [port_onPort_ne s f (Ne.symm e)]
    exact b q

/-- An update of every port that leaves the report lists. -/
theorem mapPorts {s : State} {f : PortState → PortState} (h : ∀ q, (f q).reports = q.reports) :
    s.Shrinks { s with ports := mapVec f s.ports } :=
  of_ports fun b q => by simpa [h, State.port] using b q

/-- An update of the engine that makes no edge list longer than it may be (R139). -/
theorem onEngine {s : State} {f : Engine → Engine} (h : s.engine.edges.length ≤ 32 → (f s.engine).edges.length ≤ 32) :
    s.Shrinks (s.onEngine f) :=
  { of_eq (s := s) (t := s) with edges := h }

/-- Jobs changed but for their names and values. -/
theorem mapQueue {s : State} {f : Job → Job} (h : ∀ j ∈ s.queue, (f j).core = j.core) :
    s.Shrinks { s with queue := s.queue.map f } :=
  { of_eq (s := s) (t := s) with
    queue := by
      rw [show (s.queue.map f).map Job.core = s.queue.map Job.core by simpa using h] }

/-- Jobs of one number changed but for their names and values. -/
theorem onJob {s : State} {n : Nat} {f : Job → Job} (h : ∀ j, (f j).core = j.core) : s.Shrinks (s.onJob n f) :=
  mapQueue fun j _ => by split <;> simp [h]

/-- Jobs taken out of the queue. -/
theorem filterQueue {s : State} (keep : Job → Bool) : s.Shrinks { s with queue := s.queue.filter keep } :=
  { of_eq (s := s) (t := s) with queue := List.filter_sublist.map _ }

/-- Entries taken out of the pool. -/
theorem filterPool {s : State} (keep : PoolEntry → Bool) : s.Shrinks { s with pool := s.pool.filter keep } :=
  { of_eq (s := s) (t := s) with pool := List.filter_sublist.map _ }

/-- Label records and redo entries taken out. -/
theorem of_labels {s : State} {l : List LabelRecord} {r : List RedoEntry} (h : l.length + r.length ≤ s.labelsInFlight) :
    s.Shrinks { s with labels := l, redo := r } :=
  { of_eq (s := s) (t := s) with inFlight := h }

/-- A fold whose every step makes nothing grow. -/
theorem foldl {α : Type} {f : State → α → State} (h : ∀ (s : State) x, s.Shrinks (f s x)) (l : List α) (s : State) :
    s.Shrinks (l.foldl f s) :=
  foldl_keeps State.Shrinks refl trans h l s

end State.Shrinks

end Sys2Proof.Machine
end

section
/-! PROOFS. No operation of the ports, the ring or the engine makes anything grow that has a capacity. -/

namespace Sys2Proof.Machine

/-! ### Events, replies and reports -/

theorem shrinks_post (s : State) (p : Port) (e : Event) : s.Shrinks (s.post p e) := .onPort (by simp)

theorem shrinks_postAll (s : State) (e : Event) : s.Shrinks (s.postAll e) := .foldl (fun s p => shrinks_post s p e) _ s

theorem shrinks_reply (s : State) (p : Port) (k : Byte) (c : ReplyCode) (d : List Byte) : s.Shrinks (s.reply p k c d) := .onPort id

theorem shrinks_accept (s : State) (p : Port) (k : Kind) (d : List Byte) : s.Shrinks (s.accept p k d) := shrinks_reply ..

theorem shrinks_answer (s : State) (p : Port) (k : Kind) (c : ReplyCode) : s.Shrinks (s.answer p k c) := shrinks_reply ..

theorem shrinks_taken (s : State) (p : Port) : s.Shrinks (s.taken p) := .onPort (by simp)

theorem shrinks_handLine (s : State) (job copy line : Nat) : s.Shrinks (s.handLine job copy line) :=
  .mapPorts fun q => by unfold PortState.handLine; split <;> simp

theorem shrinks_placeCompletion (s : State) (c : Completion) : s.Shrinks (s.placeCompletion c) :=
  .foldl (fun s p => by
    split
    · exact .onPort (place_length _ _)
    · exact .refl s) _ s

theorem shrinks_refuseContribs (s : State) (gone : List PoolEntry) : s.Shrinks (s.refuseContribs gone) :=
  .foldl (fun s p => by
    split
    · exact shrinks_post s p _
    · exact .refl s) _ s

theorem shrinks_bandReport (s : State) (i : Fin 8) (r : BandRecord) : s.Shrinks (s.bandReport i r) := by
  unfold State.bandReport
  split
  · exact .refl s
  · exact .onPort (place_length _ _)

/-! ### Label ends -/

theorem shrinks_leaveQueue (s : State) (n : Nat) : s.Shrinks (s.leaveQueue n) :=
  .trans (.filterQueue _) (.mapPorts fun _ => rfl)

theorem shrinks_onLabel (s : State) (job copy : Nat) (f : LabelRecord → LabelRecord) : s.Shrinks (s.onLabel job copy f) :=
  .of_eq (labels := by simp [State.onLabel])

theorem shrinks_filterLabels (s : State) (keep : LabelRecord → Bool) : s.Shrinks { s with labels := s.labels.filter keep } :=
  .of_labels (Nat.add_le_add_right (List.length_filter_le ..) _)

theorem shrinks_settle (s : State) : s.Shrinks s.settle :=
  (shrinks_filterLabels s _).trans (.foldl (fun s (j : Job) => shrinks_leaveQueue s j.number) _ _)

theorem shrinks_endLabel (s : State) (job copy : Nat) (o : LabelOutcome) (m : Bool) : s.Shrinks (s.endLabel job copy o m) := by
  have off (s : State) : s.Shrinks ((s.dropLabel job copy).onEngine fun e =>
      { e with heads := e.heads.filter fun h => !(h.job == job && h.copy == copy) }) := (shrinks_filterLabels s _).trans .of_eq
  unfold State.endLabel
  split
  next j l _ _ =>
    refine .trans ((shrinks_placeCompletion s (completionOf j l o m)).trans (off _)) (.trans ?_ (shrinks_settle _))
    dsimp only
    split <;> split
    · refine .trans ?_ (shrinks_leaveQueue _ _)
      exact .onJob fun _ => rfl
    · exact shrinks_leaveQueue _ _
    · exact .onJob fun _ => rfl
    · exact .refl _
  next => exact off s

theorem shrinks_endAtHead (s : State) (h : HeadLabel) (o : LabelOutcome) : s.Shrinks (s.endAtHead h o) :=
  (shrinks_endLabel s ..).trans (.onEngine fun k => (List.length_filter_le ..).trans k)

theorem shrinks_endIfDue (s : State) (h : HeadLabel) : s.Shrinks (s.endIfDue h) := by
  unfold State.endIfDue
  split <;> split
  exacts [shrinks_endAtHead .., .refl s, shrinks_endAtHead .., .refl s]

/-- Settling keeps the records of the labels that are still held (R99). -/
theorem settle_labels (s : State) : s.settle.labels = s.labels.filter (fun l => s.holdsLabel l.job l.copy) := by
  unfold State.settle
  have h (l : List Job) (s : State) : (l.foldl (fun s j => s.leaveQueue j.number) s).labels = s.labels :=
    foldl_keeps (f := fun s (j : Job) => s.leaveQueue j.number) (fun s t => t.labels = s.labels) (fun _ => rfl) (fun h k => k.trans h)
      (fun _ _ => rfl) l s
  rw [h]

/-- A label's end gives up its record, and makes none (R73, R99). -/
theorem endLabel_labels (s : State) (job copy : Nat) (o : LabelOutcome) (m : Bool) :
    (s.endLabel job copy o m).labels.Sublist (s.labels.filter fun l => !(l.job == job && l.copy == copy)) := by
  unfold State.endLabel
  split
  · rw [settle_labels, placeCompletion_frame]
    refine List.filter_sublist.trans ?_
    split <;> split <;> exact .refl _
  · exact .refl _

theorem endAtHead_labels (s : State) (h : HeadLabel) (o : LabelOutcome) :
    (s.endAtHead h o).labels.Sublist (s.labels.filter fun l => !(l.job == h.job && l.copy == h.copy)) := endLabel_labels ..

theorem endAtHead_redo (s : State) (h : HeadLabel) (o : LabelOutcome) : (s.endAtHead h o).redo = s.redo := by
  unfold State.endAtHead
  rw [endLabel_frame]
  rfl

theorem endIfDue_labels (s : State) (h : HeadLabel) : (s.endIfDue h).labels.Sublist s.labels := by
  unfold State.endIfDue
  split <;> split
  exacts [(endAtHead_labels ..).trans List.filter_sublist, .refl _, (endAtHead_labels ..).trans List.filter_sublist, .refl _]

theorem endIfDue_redo (s : State) (h : HeadLabel) : (s.endIfDue h).redo = s.redo := by
  unfold State.endIfDue
  split <;> split
  exacts [endAtHead_redo .., rfl, endAtHead_redo .., rfl]

/-- A label whose last line is done ends at this step unless it is being carried out (R144, R145). -/
theorem endIfDue_labels_of_due {s : State} {h : HeadLabel} (out : h.out = false) (due : h.length ≤ h.done) :
    (s.endIfDue h).labels.Sublist (s.labels.filter fun l => !(l.job == h.job && l.copy == h.copy)) := by
  unfold State.endIfDue
  simp only [out, Bool.not_false, if_true, due]
  exact endAtHead_labels ..

/-- Of a fold that only gives up label records, where one step gives up those a test fails, none such is left. -/
theorem foldl_labels {α : Type} {f : State → α → State} (h : ∀ (s : State) x, (f s x).labels.Sublist s.labels)
    {keep : LabelRecord → Bool} {l : List α} {y : α} (hy : y ∈ l) (hk : ∀ s : State, (f s y).labels.Sublist (s.labels.filter keep))
    (s : State) : (l.foldl f s).labels.Sublist (s.labels.filter keep) := by
  induction l generalizing s with
  | nil => cases hy
  | cons x l ih =>
    rw [List.foldl_cons]
    rcases List.mem_cons.mp hy with rfl | hy
    · exact (foldl_keeps (fun s t => t.labels.Sublist s.labels) (fun _ => .refl _) (fun h k => k.trans h) h l _).trans (hk s)
    · exact (ih hy (f s x)).trans ((h s x).filter _)

/-! ### The flush -/

/-- A list with each member kept at its first place has each once. -/
theorem firstOnly_nodup {α : Type} [DecidableEq α] (l : List α) : (firstOnly l).Nodup := by
  have h (acc : List α) (hacc : acc.Nodup) : (l.foldl (fun acc x => if x ∈ acc then acc else acc ++ [x]) acc).Nodup := by
    induction l generalizing acc with
    | nil => exact hacc
    | cons x l ih =>
      refine ih _ ?_
      dsimp only
      split
      · exact hacc
      next hx => exact List.nodup_append.mpr ⟨hacc, by simp, by rintro a ha b hb rfl; simp_all⟩
  exact h [] .nil

/-- Names of labels not at the head give no more redo entries than there are label records of labels not at the head (R115). -/
theorem redoEntries_length (s : State) {ids : List (Nat × Nat)} (nodup : ids.Nodup) (off : ∀ i ∈ ids, s.atHead i.1 i.2 = false) :
    (ids.filterMap fun i => s.redoEntry? i.1 i.2).length ≤ (s.labels.filter fun l => !s.atHead l.job l.copy).length := by
  rw [List.length_filterMap_eq_countP, List.countP_eq_length_filter, ← List.length_map (fun l : LabelRecord => (l.job, l.copy))]
  refine (List.subperm_of_subset (nodup.filter _) fun i hi => ?_).length_le
  obtain ⟨mem, some⟩ := List.mem_filter.mp hi
  obtain ⟨e, he⟩ := Option.isSome_iff_exists.mp some
  obtain ⟨l, hl, -⟩ := Option.map_eq_some_iff.mp he
  have same := List.find?_some hl
  simp only [Bool.and_eq_true, beq_iff_eq] at same
  refine List.mem_map.mpr ⟨l, List.mem_filter.mpr ⟨List.mem_of_find?_eq_some hl, ?_⟩, ?_⟩
  · simpa [same] using off i mem
  · simp [same]

/-- A flush puts on the redo list no more than it takes from the label records, but for the label that has ended with it (R114, R115). -/
theorem flush_inFlight (s : State) (first : Option RedoEntry) :
    (s.flush first).labelsInFlight ≤ s.labelsInFlight + first.toList.length := by
  have redo : (s.flush first).redo = s.flushEntries first ++ s.redo := by rw [flush_frame]
  have labels : (s.flush first).labels = s.labels.filter fun l => s.atHead l.job l.copy := by
    unfold State.flush
    rw [settle_labels]
    have ring (j c : Nat) :
        ({ s with ring := .empty, hand := none, redo := s.flushEntries first ++ s.redo } : State).inRing j c = false := by
      simp [State.inRing, Ring.empty, Buffer.holds, Buffer.empty]
    simp only [State.holdsLabel, State.inHand, ring, Option.any_none, Bool.false_or]
    rfl
  have split := List.length_eq_length_filter_add (l := s.labels) fun l => s.atHead l.job l.copy
  have entries : (s.flushEntries first).length ≤
      first.toList.length + (s.labels.filter fun l => !s.atHead l.job l.copy).length := by
    unfold State.flushEntries
    rw [List.length_append]
    refine Nat.add_le_add_left (redoEntries_length s ((firstOnly_nodup _).filter _) fun i hi => ?_) _
    have k := (List.mem_filter.mp hi).2
    simp only [Bool.and_eq_true, Bool.not_eq_true'] at k
    exact k.1.2
  simp only [State.labelsInFlight, redo, labels, List.length_append]
  omega

/-- A flush before which the label ended with it has lost its record makes nothing grow (R114, R115). -/
theorem shrinks_flush_of_ended {s s' : State} (h : s.Shrinks s') (first : Option RedoEntry)
    (ended : s'.labelsInFlight + first.toList.length ≤ s.labelsInFlight) : s.Shrinks (s'.flush first) :=
  have k := shrinks_settle { s' with ring := .empty, hand := none, redo := s'.flushEntries first ++ s'.redo }
  ⟨k.reports ∘ h.reports, k.queue.trans h.queue, k.pool.trans h.pool, k.edges ∘ h.edges, (flush_inFlight s' first).trans ended,
    k.slots.trans h.slots, k.counters.trans h.counters, k.image.trans h.image⟩

end Sys2Proof.Machine
end

section
/-! PROOFS. No operation of the engine makes anything grow that has a capacity. -/

namespace Sys2Proof.Machine

/-! ### Ends at the head, and the flush that goes with them -/

/-- Labels at the head ended, and the ring flushed with the redo entry of one of them, which had its record: nothing grows (R114, R115). -/
theorem shrinks_flush_after_ends {f : State → HeadLabel → State} (shrinks : ∀ (s : State) h, s.Shrinks (f s h))
    (labels : ∀ (s : State) h, (f s h).labels.Sublist s.labels) (redo : ∀ (s : State) h, (f s h).redo = s.redo)
    (s : State) (heads : List HeadLabel) (first : Option RedoEntry)
    (ended : ∀ e, first = some e → ∃ h ∈ heads, s.redoEntry? h.job h.copy = some e ∧
      ∀ t : State, (f t h).labels.Sublist (t.labels.filter fun l => !(l.job == h.job && l.copy == h.copy))) :
    s.Shrinks ((heads.foldl f s).flush first) := by
  have fold : s.Shrinks (heads.foldl f s) := .foldl shrinks heads s
  have redo : (heads.foldl f s).redo = s.redo :=
    foldl_keeps (fun s t => t.redo = s.redo) (fun _ => rfl) (fun h k => k.trans h) redo heads s
  refine shrinks_flush_of_ended fold first ?_
  cases first with
  | none => simpa using fold.inFlight
  | some e =>
    obtain ⟨h, mem, entry, ends⟩ := ended e rfl
    obtain ⟨l, hl, -⟩ := Option.map_eq_some_iff.mp entry
    have named := List.find?_some hl
    have gone := (foldl_labels labels mem ends s).length_le
    have fewer : (s.labels.filter fun l => !(l.job == h.job && l.copy == h.copy)).length < s.labels.length :=
      List.length_filter_lt_length_iff_exists.mpr ⟨l, List.mem_of_find?_eq_some hl, by simp [named]⟩
    simp only [State.labelsInFlight, redo, Option.toList_some, List.length_singleton]
    omega

theorem shrinks_endsAtStep (s : State) : s.Shrinks s.endsAtStep := by
  unfold State.endsAtStep
  extract_lets t spoiled entry ended
  refine .trans (.of_eq : s.Shrinks t) ?_
  split
  · refine shrinks_flush_after_ends shrinks_endIfDue endIfDue_labels endIfDue_redo _ _ _ fun e he => ?_
    obtain ⟨h, found, entry⟩ := Option.bind_eq_some_iff.mp he
    split at entry
    · cases entry
    · have due := List.find?_some found
      simp only [Bool.and_eq_true, Bool.not_eq_true', decide_eq_true_eq] at due
      exact ⟨h, List.mem_of_find?_eq_some found, entry, fun t => endIfDue_labels_of_due due.1.2 due.2⟩
  · exact .foldl shrinks_endIfDue _ _

theorem shrinks_enterFault (s : State) : s.Shrinks s.enterFault := by
  unfold State.enterFault
  extract_lets t first ended
  refine .trans (.of_eq : s.Shrinks t) ?_
  refine .trans (.trans ?_ (.onEngine fun _ => Nat.zero_le _)) (shrinks_postAll _ _)
  refine shrinks_flush_after_ends (fun s h => shrinks_endAtHead s h _) (fun s h => (endAtHead_labels s h _).trans List.filter_sublist)
    (fun s h => endAtHead_redo s h _) _ _ _ fun e he => ?_
  obtain ⟨h, found, entry⟩ := Option.bind_eq_some_iff.mp he
  exact ⟨h, List.mem_of_find?_eq_some found, entry, fun t => endAtHead_labels t h _⟩

theorem shrinks_joinFaults (s : State) (f : FaultSet) : s.Shrinks (s.joinFaults f) := by
  unfold State.joinFaults
  extract_lets t
  refine .trans (.of_eq : s.Shrinks t) ?_
  split
  · exact shrinks_enterFault _
  · exact .refl _

/-! ### The next work -/

theorem shrinks_skipVoidFuel (n : Nat) (s : State) : s.Shrinks (skipVoidFuel n s) := by
  induction n generalizing s with
  | zero => exact .refl s
  | succ n ih =>
    unfold skipVoidFuel
    split
    · split
      · exact .trans (.trans .of_eq (shrinks_settle s.skipBand)) (ih _)
      · exact .refl s
    · exact .refl s

theorem shrinks_skipVoid (s : State) : s.Shrinks s.skipVoid := shrinks_skipVoidFuel 8 s

/-- The choice of a start takes records out of the edge list at most (R139, R141). -/
theorem chooseStart_edges (e : Engine) (offset : Int) : (e.chooseStart offset).edges.length ≤ e.edges.length := by
  unfold Engine.chooseStart
  dsimp only
  split <;> exact List.length_filter_le ..

theorem shrinks_outOfWork (s : State) : s.Shrinks s.outOfWork := by
  unfold State.outOfWork
  split <;> exact .of_eq

theorem shrinks_lookForWork (s : State) : s.Shrinks s.lookForWork := by
  refine .trans (shrinks_skipVoid s) ?_
  unfold State.lookForWork
  dsimp only
  split
  · exact .onEngine fun h => (chooseStart_edges ..).trans h
  · exact shrinks_outOfWork _

theorem shrinks_startBlank (s : State) : s.Shrinks s.startBlank := by
  unfold State.startBlank
  split
  · exact .refl s
  · exact .of_eq

theorem shrinks_startBurn (s : State) (y : Nat) (bits : List Bool) : s.Shrinks (s.startBurn y bits) := by
  unfold State.startBurn
  split
  · exact .of_eq
  · exact .refl s

theorem shrinks_underrun (s : State) (h : HeadLabel) : s.Shrinks (s.underrun h) := by
  unfold State.underrun
  split
  · exact .trans .of_eq (shrinks_startBlank _)
  · exact (shrinks_onLabel s ..).trans .of_eq

theorem shrinks_startLabelLine (s : State) (h : HeadLabel) : s.Shrinks (s.startLabelLine h) := by
  unfold State.startLabelLine
  split
  · exact shrinks_startBlank s
  · extract_lets t
    have take : s.Shrinks t := by
      unfold t
      split
      · exact .of_eq
      · exact .refl s
    clear_value t
    refine take.trans ?_
    split
    · exact shrinks_startBlank t
    · split
      · split
        · exact shrinks_startBurn ..
        · exact .refl t
      · exact shrinks_underrun ..

theorem shrinks_beginAtHead (s : State) (start edge : Int) : s.Shrinks (s.beginAtHead start edge) := by
  unfold State.beginAtHead
  split
  · exact shrinks_startBlank s
  · exact .trans .of_eq (shrinks_startLabelLine _ _)

theorem shrinks_startMove (s : State) : s.Shrinks s.startMove := by
  unfold State.startMove
  split
  · exact .refl s
  · split
    · exact shrinks_beginAtHead ..
    · exact shrinks_startBlank s
  · split
    · exact shrinks_startLabelLine ..
    · exact shrinks_startBlank s
  · exact shrinks_startBlank s

theorem shrinks_goOn (s : State) : s.Shrinks s.goOn := (shrinks_lookForWork s).trans (shrinks_startMove _)

/-! ### Presenting, retracting and dry run -/

theorem shrinks_retract (s : State) : s.Shrinks s.retract := by
  unfold State.retract
  split
  · exact .trans .of_eq (shrinks_goOn _)
  · exact .of_eq

theorem shrinks_lookFromPresenting (s : State) : s.Shrinks s.lookFromPresenting := by
  unfold State.lookFromPresenting
  split
  · exact .refl s
  · refine .trans (shrinks_skipVoid s) ?_
    dsimp only
    split
    · exact shrinks_retract _
    · exact .refl _

theorem shrinks_present (s : State) : s.Shrinks s.present := .trans .of_eq (shrinks_lookFromPresenting _)

theorem shrinks_backFeed (s : State) : s.Shrinks s.backFeed := by
  unfold State.backFeed
  split
  · extract_lets t
    refine .trans (.of_eq : s.Shrinks t) ?_
    split
    · exact .trans .of_eq (shrinks_goOn _)
    · exact .refl _
  · exact .refl s

theorem shrinks_dryTakeFuel (n : Nat) (s : State) : s.Shrinks (dryTakeFuel n s) := by
  induction n generalizing s with
  | zero => exact .refl s
  | succ n ih =>
    unfold dryTakeFuel
    split
    · exact .refl s
    · split
      · exact .trans (.trans .of_eq (shrinks_settle s.skipBand)) (ih _)
      · exact .of_eq

theorem shrinks_dryTake (s : State) : s.Shrinks s.dryTake := by
  unfold State.dryTake
  split
  · exact shrinks_dryTakeFuel 9 s
  · exact .refl s

theorem shrinks_engineLook (s : State) : s.Shrinks s.engineLook := by
  unfold State.engineLook
  split
  · exact shrinks_goOn s
  · split
    · split
      · exact .trans .of_eq (shrinks_startLabelLine _ _)
      · exact .refl s
    · exact .refl s
  · exact shrinks_lookFromPresenting s
  · exact shrinks_dryTake s
  · exact .refl s

theorem shrinks_leaveFaults (s : State) (f : FaultSet) : s.Shrinks (s.leaveFaults f) := by
  unfold State.leaveFaults
  extract_lets t
  refine .trans (.of_eq : s.Shrinks t) ?_
  split
  · exact .trans (.trans .of_eq (shrinks_postAll _ _)) (shrinks_engineLook _)
  · exact .refl _

theorem shrinks_leaveDry (s : State) : s.Shrinks s.leaveDry := by
  unfold State.leaveDry
  extract_lets ending ended stopped emptied
  have ends : s.Shrinks ended := .foldl (fun s (l : LabelRecord) => shrinks_endLabel s l.job l.copy .dry false) ending s
  have stops : ended.Shrinks stopped := .onEngine fun _ => Nat.zero_le _
  have empties : stopped.Shrinks emptied := .trans .of_eq (shrinks_settle _)
  refine (ends.trans stops).trans (empties.trans ?_)
  split
  · exact shrinks_engineLook _
  · exact shrinks_enterFault _

theorem shrinks_dryNext (s : State) : s.Shrinks s.dryNext := by
  unfold State.dryNext
  split
  · exact shrinks_leaveDry s
  · exact shrinks_dryTake s

theorem shrinks_consumeLine (s : State) : s.Shrinks s.consumeLine := by
  unfold State.consumeLine
  split
  · split
    · exact .refl s
    · extract_lets handed reported ended
      refine .trans (shrinks_handLine .. : s.Shrinks handed) ?_
      split
      · exact .trans (.trans .of_eq (shrinks_endLabel ..)) (shrinks_dryNext _)
      · split
        · exact .of_eq
        · have reports : handed.Shrinks reported := (shrinks_bandReport ..).trans .of_eq
          have ends : reported.Shrinks ended := by
            unfold ended
            split
            · exact shrinks_endLabel ..
            · exact .refl _
          exact (reports.trans ends).trans (.trans (.trans .of_eq (shrinks_settle _)) (shrinks_dryNext _))
  · exact .refl s

/-! ### A cancel -/

theorem shrinks_cancelInRing (s : State) (n : Nat) : s.Shrinks (s.cancelInRing n) := by
  unfold State.cancelInRing
  extract_lets dropped
  have drops : s.Shrinks dropped := by
    unfold dropped
    split
    · split <;> exact .of_eq
    · exact .refl s
  clear_value dropped
  refine drops.trans { State.Shrinks.refl dropped with reports := ?_, queue := ?_, inFlight := ?_ }
  · exact fun b p => by simpa [State.port] using b p
  · exact (State.Shrinks.mapQueue (s := dropped) fun j _ => by split <;> rfl).queue
  · exact Nat.add_le_add_left (List.length_filter_le ..) _

theorem shrinks_dryCancel (s : State) (n : Nat) : s.Shrinks (s.dryCancel n) := by
  unfold State.dryCancel
  split
  · exact shrinks_dryTake s
  · split
    · exact .refl s
    · exact (shrinks_endLabel ..).trans (shrinks_dryTake _)

theorem shrinks_cancelAtEngine (s : State) (n : Nat) : s.Shrinks (s.cancelAtEngine n) := by
  have look : s.Shrinks (if s.takeFull?.any (·.void) then s.lookForWork else s) := by
    split
    · exact shrinks_lookForWork s
    · exact .refl s
  unfold State.cancelAtEngine
  split
  · exact shrinks_dryCancel s n
  · split
    · exact look
    · exact look
    · exact .refl s
  · split
    · exact look
    · exact look
    · exact .refl s
  · exact shrinks_engineLook s

/-! ### FEED and the forward step -/

/-- The second search of a FEED leaves the edge list (R153). -/
theorem feedNext_edges (e : Engine) (offset first : Int) : (e.feedNext offset first).edges = e.edges := by
  unfold Engine.feedNext
  split <;> rfl

/-- The searches of a FEED take records out of the edge list at most (R139, R153). -/
theorem feedSearch_edges (e : Engine) (offset : Int) : (e.feedSearch offset).edges.length ≤ e.edges.length := by
  have prune : (e.prune offset).edges.length ≤ e.edges.length := List.length_filter_le ..
  unfold Engine.feedSearch
  split
  · dsimp only
    split
    · rwa [feedNext_edges]
    · exact prune
  · rwa [feedNext_edges]
  · exact le_rfl

theorem shrinks_startFeed (s : State) : s.Shrinks s.startFeed := by
  unfold State.startFeed
  exact .trans (.onEngine fun h => le_trans (feedSearch_edges ..) h) (shrinks_startBlank _)

theorem loseRegistration_edges (e : Engine) : e.loseRegistration.edges.length ≤ e.edges.length := List.length_filter_le ..

/-- A full edge list drops a new record (R139). -/
theorem edgeFound_edges (e : Engine) (pos : Int) (h : e.edges.length ≤ 32) : (e.edgeFound pos).edges.length ≤ 32 := by
  unfold Engine.edgeFound
  split
  next room => simpa using room
  next => exact (loseRegistration_edges e).trans h

/-- A turn to gap makes no record (R139). -/
theorem gapFound_edges (e : Engine) (pos : Int) : (e.gapFound pos).edges.length = e.edges.length := by
  unfold Engine.gapFound
  split
  next last =>
    have ne : e.edges ≠ [] := by rintro k; simp [k] at last
    have := List.length_pos_iff.mpr ne
    split
    · simp; omega
    · rfl
  next => rfl

/-- A reading keeps the edge list within its capacity (R138, R139). -/
theorem read_edges (e : Engine) (sensor nOn nOff : Nat) (gap : Bool) (h : e.edges.length ≤ 32) :
    (e.read sensor nOn nOff gap).edges.length ≤ 32 := by
  unfold Engine.read
  split
  · dsimp only
    split
    · unfold Engine.readOnGap
      split
      · exact h
      · split
        · exact edgeFound_edges _ _ h
        · exact h
    · unfold Engine.readOnLabel
      split
      · split
        · exact (gapFound_edges _ _).trans_le h
        · exact h
      · exact h
  · exact h

theorem shrinks_motorSteps (s : State) (l : Line) (gap : Bool) : s.Shrinks (s.motorSteps l gap) :=
  .onEngine fun h => read_edges _ _ _ _ gap h

theorem shrinks_endLine (s : State) (l : Line) : s.Shrinks (s.endLine l) := by
  unfold State.endLine
  split
  · extract_lets counted handed
    have counts : s.Shrinks counted := .of_eq
    have hands : counted.Shrinks handed := by
      unfold handed
      split
      · exact shrinks_handLine ..
      · exact .refl _
    clear_value handed
    refine (counts.trans hands).trans ?_
    split
    · split
      · exact .of_eq
      · exact .refl _
    · exact .refl _
  · exact .refl s

theorem shrinks_afterLabel (s : State) : s.Shrinks s.afterLabel := by
  unfold State.afterLabel
  split
  · split
    · exact shrinks_present s
    · exact .trans .of_eq (shrinks_startMove _)
  · exact shrinks_goOn s

theorem shrinks_countSearch (s : State) : s.Shrinks s.countSearch := by
  unfold State.countSearch
  split
  · exact .of_eq
  · exact .refl s

theorem shrinks_afterStep (s : State) (read : Bool) : s.Shrinks (s.afterStep read) := by
  have search : s.Shrinks (if read then s.countSearch.onEngine (·.feedSearch s.topOffset) else s.countSearch) := by
    refine .trans (shrinks_countSearch s) ?_
    split
    · exact .onEngine fun h => (feedSearch_edges ..).trans h
    · exact .refl _
  unfold State.afterStep
  split
  case h_1 => exact .refl s
  case h_2 =>
    split
    · exact shrinks_startMove s
    · exact shrinks_afterLabel s
  case h_3 =>
    split
    · exact (shrinks_countSearch s).trans (shrinks_goOn _)
    · exact (shrinks_countSearch s).trans (shrinks_startBlank _)
  case h_4 => exact shrinks_startMove s
  case h_5 =>
    split
    · exact shrinks_present s
    · exact shrinks_startBlank s
  all_goals
    extract_lets t
    have searched : s.Shrinks t := search
    clear_value t
    refine searched.trans ?_
    split
    · split
      · exact .trans .of_eq (shrinks_engineLook _)
      · exact shrinks_startBlank t
    · exact shrinks_startBlank t

theorem shrinks_forwardStep (s : State) (gap : Bool) : s.Shrinks (s.forwardStep gap) := by
  have move (l : Line) : s.Shrinks ((s.motorSteps l gap).endLine l) := (shrinks_motorSteps s l gap).trans (shrinks_endLine _ l)
  have go (t : State) (read : Bool) : t.Shrinks (t.endsAtStep.afterStep read) := (shrinks_endsAtStep t).trans (shrinks_afterStep _ read)
  unfold State.forwardStep
  split
  case h_3 => exact .refl s
  all_goals
    rename Line => l
    refine (move l).trans ?_
    dsimp only
    split
    · exact go _ _
    · split
      · exact .trans .of_eq (shrinks_joinFaults _ _)
      · exact .trans (.trans .of_eq (go _ _)) (shrinks_joinFaults _ _)

end Sys2Proof.Machine
end

section
/-! PROOFS. The capacities a step keeps, as a relation of states, and what has it: whatever makes nothing grow, and the updates of the form
slots, the retained image and the counters. -/

namespace Sys2Proof.Machine

/-! ### The relation -/

/-- From one state to the next every capacity, every counter's limits and the names records are found by are kept. -/
structure State.Keeps (s t : State) : Prop where
  reports   : s.reportsBounded → t.reportsBounded
  queue     : s.queueBounded → t.queueBounded
  pool      : s.poolBounded → t.poolBounded
  edges     : s.edgesBounded → t.edgesBounded
  counters  : s.countersInLimits → t.countersInLimits
  labels    : s.labelsBounded → t.labelsBounded
  formPools : s.formPoolsBounded → t.formPoolsBounded
  names     : s.namesDistinct → t.namesDistinct
  values    : s.namesDistinct → s.valuesBounded → t.valuesBounded

namespace State.Keeps

theorem refl (s : State) : s.Keeps s := ⟨id, id, id, id, id, id, id, id, fun _ => id⟩

theorem trans {a b c : State} (h : a.Keeps b) (k : b.Keeps c) : a.Keeps c where
  reports := k.reports ∘ h.reports
  queue := k.queue ∘ h.queue
  pool := k.pool ∘ h.pool
  edges := k.edges ∘ h.edges
  counters := k.counters ∘ h.counters
  labels := k.labels ∘ h.labels
  formPools := k.formPools ∘ h.formPools
  names := k.names ∘ h.names
  values n v := k.values (h.names n) (h.values n v)

theorem foldl {α : Type} {f : State → α → State} (h : ∀ (s : State) x, s.Keeps (f s x)) (l : List α) (s : State) :
    s.Keeps (l.foldl f s) :=
  foldl_keeps State.Keeps refl trans h l s

end State.Keeps

/-! ### What makes nothing grow -/

/-- Whether a job's fields are distinct shows in its core (R61, R81). -/
theorem fieldsDistinct_of_core {j k : Job} (h : j.core = k.core) (d : k.fieldsDistinct) : j.fieldsDistinct := by
  simp only [Job.core, Prod.mk.injEq] at h
  simpa only [Job.fieldsDistinct, h] using d

namespace State.Shrinks

variable {s t : State}

/-- A job of the later state was in the queue before, by its number, key and values. -/
theorem job_before (h : s.Shrinks t) {j : Job} (hj : j ∈ t.queue) : ∃ k ∈ s.queue, j.core = k.core := by
  obtain ⟨k, hk, e⟩ := List.mem_map.mp (h.queue.subset (List.mem_map_of_mem hj))
  exact ⟨k, hk, e.symm⟩

/-- A pool entry of the later state was in the pool before, but for its age. -/
theorem entry_before (h : s.Shrinks t) {e : PoolEntry} (he : e ∈ t.pool) : ∃ d ∈ s.pool, e.core = d.core := by
  obtain ⟨d, hd, e⟩ := List.mem_map.mp (h.pool.subset (List.mem_map_of_mem he))
  exact ⟨d, hd, e.symm⟩

theorem namesDistinct (h : s.Shrinks t) (n : s.namesDistinct) : t.namesDistinct := by
  obtain ⟨numbers, fields, entries, keys, forms⟩ := n
  refine ⟨?_, fun j hj => ?_, ?_, fun j hj e he => ?_, ?_⟩
  · have sub := (h.queue.map fun c => c.1)
    simp only [List.map_map] at sub
    exact numbers.sublist sub
  · obtain ⟨k, hk, same⟩ := h.job_before hj
    exact fieldsDistinct_of_core same (fields k hk)
  · have sub := (h.pool.map fun c => (c.1, c.2.1, c.2.2.1))
    simp only [List.map_map] at sub
    exact entries.sublist sub
  · obtain ⟨k, hk, jk⟩ := h.job_before hj
    obtain ⟨d, hd, ed⟩ := h.entry_before he
    simp only [Job.core, PoolEntry.core, Prod.mk.injEq] at jk ed
    rw [jk.2.1, ed.1]
    exact keys k hk d hd
  · rw [h.slots, h.image]
    exact forms

theorem valuesUsed (h : s.Shrinks t) : t.valuesUsed ≤ s.valuesUsed := by
  have jobs := (h.queue.map fun c => (c.2.2.1.map fun d => d.2.length).sum + (c.2.2.2.map fun x => x.value.length).sum)
  have entries := (h.pool.map fun c => c.2.2.2.length)
  simp only [List.map_map] at jobs entries
  exact Nat.add_le_add (jobs.sum_le_sum fun _ _ => Nat.zero_le _) (entries.sum_le_sum fun _ _ => Nat.zero_le _)

theorem keeps (h : s.Shrinks t) : s.Keeps t where
  reports := h.reports
  queue b := le_trans (by simpa using h.queue.length_le) b
  pool b := le_trans (by simpa using h.pool.length_le) b
  edges := h.edges
  counters b := by simpa only [State.countersInLimits, h.counters, h.image] using b
  labels b := h.inFlight.trans b
  formPools b := by simpa only [State.formPoolsBounded, State.poolUsed, h.slots] using b
  names := h.namesDistinct
  values _ b := h.valuesUsed.trans b

end State.Shrinks

/-! ### Form slots and pools -/

/-- What a slot takes of a pool (R5). -/
def Slot.uses (use : Form → Nat) (x : Slot) : Nat := (x.form?).elim 0 use

theorem poolUsed_eq (s : State) (use : Form → Nat) : s.poolUsed use = (s.slots.toList.map (Slot.uses use)).sum := rfl

theorem slotIndex_eq_some {n : Nat} {i : Fin 32} : slotIndex n = some i ↔ n = i.val + 1 := by
  unfold slotIndex
  split
  · rw [Option.some.injEq, Fin.ext_iff]
    dsimp only
    omega
  · have := i.isLt
    simp only [reduceCtorEq, false_iff]
    omega

theorem slot_succ (s : State) (i : Fin 32) : s.slot (i.val + 1) = s.slots[i] := by
  simp only [State.slot, slotIndex_eq_some.mpr (rfl : i.val + 1 = i.val + 1)]

theorem setSlot_succ (s : State) (i : Fin 32) (x : Slot) : s.setSlot (i.val + 1) x = { s with slots := s.slots.set i x } := by
  simp only [State.setSlot, slotIndex_eq_some.mpr (rfl : i.val + 1 = i.val + 1)]

/-- A number in range is some slot's. -/
theorem exists_slot {n : Nat} (lo : 1 ≤ n) (hi : n ≤ 32) : ∃ i : Fin 32, n = i.val + 1 := ⟨⟨n - 1, by omega⟩, by simp; omega⟩

/-- A slot that is not EMPTY has its number in range. -/
theorem exists_slot_of_ne {s : State} {n : Nat} (h : s.slot n ≠ .empty) : ∃ i : Fin 32, n = i.val + 1 := by
  unfold State.slot at h
  split at h
  next i e => exact ⟨i, slotIndex_eq_some.mp e⟩
  next => exact absurd rfl h

/-- The sum over a vector with one entry replaced. -/
theorem sum_set {n : Nat} {α : Type} (v : Vector α n) (w : α → Nat) (i : Fin n) (x : α) :
    ((v.set i x).toList.map w).sum + w v[i] = (v.toList.map w).sum + w x := by
  have hi : i.val < v.toList.length := by simp
  have cut (y : α) : v.toList.set i y = v.toList.take i ++ y :: v.toList.drop (i + 1) := by
    rw [List.set_eq_take_append_cons_drop, if_pos hi]
  have self : v.toList = v.toList.take i ++ v[i] :: v.toList.drop (i + 1) := by
    rw [← cut, show v[i] = v.toList[i.val] by simp, List.set_getElem_self]
  rw [Vector.toList_set, cut]
  conv_rhs => rw [self]
  simp only [List.map_append, List.map_cons, List.sum_append, List.sum_cons]
  omega

/-- A slot replaced gives back its use of a pool and takes the new one's (R5). -/
theorem poolUsed_setSlot (s : State) (use : Form → Nat) {n : Nat} (lo : 1 ≤ n) (hi : n ≤ 32) (x : Slot) :
    (s.setSlot n x).poolUsed use + (s.slot n).uses use = s.poolUsed use + x.uses use := by
  obtain ⟨i, rfl⟩ := exists_slot lo hi
  rw [slot_succ, setSlot_succ]
  exact sum_set s.slots (Slot.uses use) i x

end Sys2Proof.Machine
end

section
/-! PROOFS. What keeps the capacities though something grows: forms defined, counters set and drawn, jobs and values taken in. -/

namespace Sys2Proof.Machine

/-! ### Form slots and the retained forms -/

/-- No form of a slot, nor of the retained image, has two fields of a number (R6, R15). -/
def State.formsDistinct (s : State) : Prop :=
  ∀ i : Fin 32, (∀ f, (s.slots[i]).form? = some f → f.numbersDistinct) ∧
    ∀ f, s.retained.image.forms[i] = some f → f.numbersDistinct

theorem formsDistinct_of_names {s : State} (h : s.namesDistinct) : s.formsDistinct := h.2.2.2.2

/-- The form a slot number holds has distinct field numbers. -/
theorem numbersDistinct_of_slot {s : State} (h : s.formsDistinct) {n : Nat} {f : Form} (hf : (s.slot n).form? = some f) :
    f.numbersDistinct := by
  obtain ⟨i, rfl⟩ := exists_slot_of_ne (s := s) (n := n) (by intro e; rw [e] at hf; cases hf)
  rw [slot_succ] at hf
  exact (h i).1 f hf

/-- Forms changed, in the slots or the retained image, within the pools and with distinct field numbers. -/
theorem keeps_of_forms {s : State} {v : Vector Slot 32} {r : Retained} (counters : r.image.counters = s.retained.image.counters)
    (pools : s.formPoolsBounded → { s with slots := v }.formPoolsBounded)
    (forms : s.namesDistinct → { s with slots := v, retained := r }.formsDistinct) : s.Keeps { s with slots := v, retained := r } where
  __ := State.Keeps.refl s
  counters h := by simpa only [State.countersInLimits, counters] using h
  formPools := pools
  names h := ⟨h.1, h.2.1, h.2.2.1, h.2.2.2.1, forms h⟩

/-- A slot given a form within the pools with distinct field numbers. -/
theorem keeps_setSlot {s : State} {n : Nat} {x : Slot} (pools : s.formPoolsBounded → (s.setSlot n x).formPoolsBounded)
    (distinct : s.namesDistinct → ∀ f, x.form? = some f → f.numbersDistinct) : s.Keeps (s.setSlot n x) := by
  by_cases range : 1 ≤ n ∧ n ≤ 32
  · obtain ⟨i, rfl⟩ := exists_slot range.1 range.2
    rw [setSlot_succ] at pools ⊢
    refine keeps_of_forms rfl pools fun names j => ⟨fun f hf => ?_, (formsDistinct_of_names names j).2⟩
    by_cases e : j = i
    · subst e
      exact distinct names f (by simpa using hf)
    · refine (formsDistinct_of_names names j).1 f ?_
      rwa [Fin.getElem_fin, Vector.getElem_set_ne _ _ fun k => e (Fin.ext k.symm)] at hf
  · have : slotIndex n = none := dif_neg range
    simp only [State.setSlot, this]
    exact .refl s

/-- A slot given a form that takes no more of any pool than the one it held. -/
theorem keeps_setSlot_of_le {s : State} {n : Nat} {x : Slot}
    (uses : ∀ use ∈ [Form.fieldsUsed, Form.textUsed, Form.rowsUsed], x.uses use ≤ (s.slot n).uses use)
    (distinct : s.namesDistinct → ∀ f, x.form? = some f → f.numbersDistinct) : s.Keeps (s.setSlot n x) := by
  refine keeps_setSlot (fun ⟨fields, text, rows⟩ => ?_) distinct
  have le (use) (pool : use ∈ [Form.fieldsUsed, Form.textUsed, Form.rowsUsed]) : (s.setSlot n x).poolUsed use ≤ s.poolUsed use := by
    by_cases range : 1 ≤ n ∧ n ≤ 32
    · have := poolUsed_setSlot s use range.1 range.2 x
      have := uses use pool
      omega
    · have : slotIndex n = none := dif_neg range
      simp only [State.setSlot, this, le_refl]
  exact ⟨(le _ (by simp)).trans fields, (le _ (by simp)).trans text, (le _ (by simp)).trans rows⟩

theorem keeps_setSlot_empty (s : State) (n : Nat) : s.Keeps (s.setSlot n .empty) :=
  keeps_setSlot_of_le (fun _ _ => Nat.zero_le _) fun _ _ h => by cases h

/-- A form added to the retained image, or dropped from it (R51). -/
theorem keeps_retainForm {s : State} {n : Nat} {o : Option Form} (distinct : s.namesDistinct → ∀ f, o = some f → f.numbersDistinct) :
    s.Keeps (s.retainForm n o) := by
  unfold State.retainForm
  split
  next i _ _ =>
    refine keeps_of_forms rfl id fun names j => ⟨(formsDistinct_of_names names j).1, fun f hf => ?_⟩
    by_cases e : j = i
    · subst e
      exact distinct names f (by simpa [Image.sealed] using hf)
    · refine (formsDistinct_of_names names j).2 f ?_
      rwa [Image.sealed, Fin.getElem_fin, Vector.getElem_set_ne _ _ fun k => e (Fin.ext k.symm)] at hf
  next => exact .refl s

theorem keeps_retainForm_none (s : State) (n : Nat) : s.Keeps (s.retainForm n none) := keeps_retainForm fun _ _ h => by cases h

theorem form?_of_active? {x : Slot} {f : Form} (h : x.active? = some f) : x.form? = some f := by
  cases x
  case active => exact h
  all_goals cases h

theorem keeps_retainScope (s : State) (scope : Scope) : s.Keeps (s.retainScope scope) :=
  keeps_of_forms rfl id fun names j => by
    refine ⟨(formsDistinct_of_names names j).1, fun f hf => ?_⟩
    cases scope with
    | counters => simp [Image.sealed] at hf
    | countersAndForms => exact (formsDistinct_of_names names j).1 f (form?_of_active? (by simpa [Image.sealed] using hf))

/-- A port's defining slot has its number in range and holds a form the port is defining (R1). -/
theorem definingSlot_some {s : State} {p : Port} {n : Nat} (h : s.definingSlot p = some n) :
    1 ≤ n ∧ n ≤ 32 ∧ ∃ f, s.slot n = .defining f ∧ f.owner = p := by
  obtain ⟨i, hi, rfl⟩ := Option.map_eq_some_iff.mp h
  have hd := List.find?_some hi
  refine ⟨by omega, by omega, ?_⟩
  rw [slot_succ]
  unfold Slot.definedBy at hd
  split at hd
  next f e => exact ⟨f, e, by simpa using hd⟩
  next => cases hd

theorem definingForm_some {s : State} {p : Port} {n : Nat} {f : Form} (h : s.definingForm p = some (n, f)) :
    1 ≤ n ∧ n ≤ 32 ∧ s.slot n = .defining f := by
  obtain ⟨m, hm, k⟩ := Option.bind_eq_some_iff.mp h
  obtain ⟨g, hg, e⟩ := Option.map_eq_some_iff.mp k
  cases e
  obtain ⟨lo, hi, g, slot, -⟩ := definingSlot_some hm
  rw [slot] at hg ⊢
  cases hg
  exact ⟨lo, hi, rfl⟩

/-! ### The form records -/

theorem fieldsFree_eq (s : State) : s.fieldsFree = 1024 - s.poolUsed Form.fieldsUsed := rfl
theorem textFree_eq (s : State) : s.textFree = 24576 - s.poolUsed Form.textUsed := rfl
theorem rowsFree_eq (s : State) : s.rowsFree = 1024 - s.poolUsed Form.rowsUsed := rfl

/-- The form pools' capacities (R5). -/
theorem formPoolsBounded_iff (s : State) : s.formPoolsBounded ↔
    s.poolUsed Form.fieldsUsed ≤ 1024 ∧ s.poolUsed Form.textUsed ≤ 24576 ∧ s.poolUsed Form.rowsUsed ≤ 1024 := Iff.rfl

/-- What a form with one more field takes of each pool (R5, R15). -/
theorem uses_addField (f : Form) (x : Field) :
    Form.fieldsUsed { f with fields := f.fields ++ [x] } = f.fieldsUsed + 1 ∧
    Form.textUsed { f with fields := f.fields ++ [x] } = f.textUsed + (x.fixedText.length + x.fallback.length) ∧
    Form.rowsUsed { f with fields := f.fields ++ [x] } = f.rowsUsed := by
  simp [Form.fieldsUsed, Form.textUsed, Form.rowsUsed]

/-- What a form with one more stencil takes of each pool (R5, R16). -/
theorem uses_addStencil (f : Form) (x : Stencil) :
    Form.fieldsUsed { f with stencils := f.stencils ++ [x] } = f.fieldsUsed ∧
    Form.textUsed { f with stencils := f.stencils ++ [x] } = f.textUsed ∧
    Form.rowsUsed { f with stencils := f.stencils ++ [x] } = f.rowsUsed + x.rows.length := by
  simp [Form.fieldsUsed, Form.textUsed, Form.rowsUsed]

/-- The pools with one more field in the form a slot is defining (R5, R15). -/
theorem poolUsed_addField {s : State} {n : Nat} {f : Form} (lo : 1 ≤ n) (hi : n ≤ 32) (slot : s.slot n = .defining f) (x : Field) :
    let t := s.setSlot n (.defining { f with fields := f.fields ++ [x] })
    t.poolUsed Form.fieldsUsed = s.poolUsed Form.fieldsUsed + 1 ∧
    t.poolUsed Form.textUsed = s.poolUsed Form.textUsed + (x.fixedText.length + x.fallback.length) ∧
    t.poolUsed Form.rowsUsed = s.poolUsed Form.rowsUsed := by
  have used (use : Form → Nat) := poolUsed_setSlot s use lo hi (.defining { f with fields := f.fields ++ [x] })
  simp only [slot, Slot.uses, Slot.form?, Option.elim_some] at used
  obtain ⟨fields, text, rows⟩ := uses_addField f x
  have := used Form.fieldsUsed
  have := used Form.textUsed
  have := used Form.rowsUsed
  refine ⟨?_, ?_, ?_⟩ <;> omega

/-- The pools with one more stencil in the form a slot is defining (R5, R16). -/
theorem poolUsed_addStencil {s : State} {n : Nat} {f : Form} (lo : 1 ≤ n) (hi : n ≤ 32) (slot : s.slot n = .defining f) (x : Stencil) :
    let t := s.setSlot n (.defining { f with stencils := f.stencils ++ [x] })
    t.poolUsed Form.fieldsUsed = s.poolUsed Form.fieldsUsed ∧ t.poolUsed Form.textUsed = s.poolUsed Form.textUsed ∧
    t.poolUsed Form.rowsUsed = s.poolUsed Form.rowsUsed + x.rows.length := by
  have used (use : Form → Nat) := poolUsed_setSlot s use lo hi (.defining { f with stencils := f.stencils ++ [x] })
  simp only [slot, Slot.uses, Slot.form?, Option.elim_some] at used
  obtain ⟨fields, text, rows⟩ := uses_addStencil f x
  have := used Form.fieldsUsed
  have := used Form.textUsed
  have := used Form.rowsUsed
  refine ⟨?_, ?_, ?_⟩ <;> omega

theorem keeps_accept (s : State) (p : Port) (k : Kind) (d : List Byte) : s.Keeps (s.accept p k d) := (shrinks_accept s p k d).keeps

theorem keeps_answer (s : State) (p : Port) (k : Kind) (c : ReplyCode) : s.Keeps (s.answer p k c) := (shrinks_answer s p k c).keeps

/-- A slot taken into DEFINING by FORM-BEGIN (R14). -/
theorem keeps_setSlot_begin (s : State) (p : Port) (r : FormBegin) (n : Nat) : s.Keeps (s.setSlot n (.defining (r.form p))) := by
  refine keeps_setSlot_of_le (fun use pool => ?_) fun _ f hf => ?_
  · have : use (r.form p) = 0 := by
      simp only [List.mem_cons, List.not_mem_nil, or_false] at pool
      obtain rfl | rfl | rfl := pool <;> rfl
    exact this.trans_le (Nat.zero_le _)
  · cases hf
    exact .nil

theorem keeps_takeFormBegin (s : State) (p : Port) (r : Option FormBegin) : s.Keeps (s.takeFormBegin p r) := by
  unfold State.takeFormBegin
  split
  · exact keeps_answer ..
  next r =>
    split
    · exact keeps_answer ..
    · split
      · exact keeps_answer ..
      · split
        · exact keeps_answer ..
        · split
          · exact keeps_answer ..
          · exact ((keeps_setSlot_begin s p r _).trans (keeps_retainForm_none _ _)).trans (keeps_accept ..)
      · exact (keeps_setSlot_begin s p r _).trans (keeps_accept ..)

theorem keeps_takeFieldDef (s : State) (p : Port) (r : Option Field) : s.Keeps (s.takeFieldDef p r) := by
  unfold State.takeFieldDef
  split
  · exact keeps_answer ..
  · exact keeps_answer ..
  next n f x found =>
    obtain ⟨lo, hi, slot⟩ := definingForm_some found
    split
    · exact keeps_answer ..
    next new =>
      split
      · exact keeps_answer ..
      next room =>
        refine .trans (keeps_setSlot (fun pools => ?_) fun names g hg => ?_) (keeps_accept ..)
        · obtain ⟨fields, text, rows⟩ := poolUsed_addField lo hi slot x
          simp only [Bool.or_eq_true, decide_eq_true_eq, not_or, not_lt] at room
          rw [fieldsFree_eq, textFree_eq] at room
          rw [formPoolsBounded_iff] at pools ⊢
          omega
        · cases hg
          have old : f.numbersDistinct := numbersDistinct_of_slot (formsDistinct_of_names names) (n := n) (by rw [slot]; rfl)
          have other : ∀ y ∈ f.fields, y.number ≠ x.number := by simpa [Form.field?] using new
          simp only [Form.numbersDistinct, List.map_append, List.map_cons, List.map_nil] at old ⊢
          refine List.nodup_append.mpr ⟨old, by simp, ?_⟩
          simpa using other

theorem keeps_takeStencilDef (s : State) (p : Port) (r : StencilDef) : s.Keeps (s.takeStencilDef p r) := by
  unfold State.takeStencilDef
  split
  · exact keeps_answer ..
  next n f found =>
    obtain ⟨lo, hi, slot⟩ := definingForm_some found
    split
    · exact keeps_answer ..
    · split
      · exact keeps_answer ..
      · split
        · exact keeps_answer ..
        next room =>
          refine .trans (keeps_setSlot (fun pools => ?_) fun names g hg => ?_) (keeps_accept ..)
          · obtain ⟨fields, text, rows⟩ := poolUsed_addStencil lo hi slot { number := r.number, rows := stencilRows r.count r.bytes }
            have count : (stencilRows r.count r.bytes).length = r.count := by simp [stencilRows]
            rw [rowsFree_eq] at room
            rw [formPoolsBounded_iff] at pools ⊢
            dsimp only at rows
            omega
          · cases hg
            exact numbersDistinct_of_slot (formsDistinct_of_names names) (n := n) (f := f) (by rw [slot]; rfl)

theorem keeps_takeFormEnd (s : State) (p : Port) : s.Keeps (s.takeFormEnd p) := by
  unfold State.takeFormEnd
  split
  · exact keeps_answer ..
  next n f found =>
    obtain ⟨lo, hi, slot⟩ := definingForm_some found
    have distinct (names : s.namesDistinct) : f.numbersDistinct :=
      numbersDistinct_of_slot (formsDistinct_of_names names) (n := n) (by rw [slot]; rfl)
    split
    · refine .trans (.trans (keeps_setSlot_of_le (fun use _ => ?_) fun names g hg => ?_) (keeps_retainForm fun names g hg => ?_))
        (keeps_accept ..)
      · rw [slot]
        exact le_rfl
      · cases hg
        exact distinct names
      · cases hg
        refine numbersDistinct_of_slot (formsDistinct_of_names names) (n := n) (f := f) ?_
        obtain ⟨i, rfl⟩ := exists_slot lo hi
        simp [slot_succ, setSlot_succ, Slot.form?]
    · exact keeps_answer ..

theorem keeps_takeFormDelete (s : State) (p : Port) (n : Nat) : s.Keeps (s.takeFormDelete p n) := by
  unfold State.takeFormDelete
  split
  · exact keeps_answer ..
  · split
    · exact keeps_answer ..
    · split
      · exact keeps_answer ..
      · exact (keeps_setSlot_empty s n).trans (keeps_accept ..)
    · split
      · exact keeps_answer ..
      · split
        · exact keeps_answer ..
        · exact ((keeps_setSlot_empty s n).trans (keeps_retainForm_none _ n)).trans (keeps_accept ..)

theorem keeps_takeFormQuery (s : State) (p : Port) (n : Nat) : s.Keeps (s.takeFormQuery p n) := by
  unfold State.takeFormQuery
  split
  · exact keeps_answer ..
  · exact keeps_accept ..

theorem keeps_dropDefining (s : State) (p : Port) : s.Keeps (s.dropDefining p) := by
  unfold State.dropDefining
  split
  · exact .refl s
  · exact keeps_setSlot_empty ..

end Sys2Proof.Machine
end

section
/-! PROOFS. Counters set, freed and drawn keep their limits, and a label start keeps the labels in flight within eight. -/

namespace Sys2Proof.Machine

/-! ### The counter records -/

/-- One counter's entry replaced by one within its limits, or by none (R39). -/
theorem keeps_setEntry {s : State} {c : CounterNo} {o : Option Counter}
    (limits : s.countersInLimits → ∀ k, o = some k → k.inLimits) : s.Keeps { s with counters := s.counters.set c o } where
  __ := State.Keeps.refl s
  counters h d := by
    refine ⟨fun k hk => ?_, (h d).2⟩
    by_cases e : d = c
    · subst e
      exact limits h k (by simpa using hk)
    · refine (h d).1 k ?_
      rwa [Fin.getElem_fin, Vector.getElem_set_ne _ _ fun j => e (Fin.ext j.symm)] at hk

theorem keeps_retainCounters (s : State) : s.Keeps s.retainCounters where
  __ := State.Keeps.refl s
  counters h d := ⟨(h d).1, (h d).1⟩

/-- A counter's definition that passes COUNTER-SET's checks is within its limits (R39, R40). -/
theorem checked_inLimits {r : CounterSet} {p : Port} {c : CounterNo} {k : Counter} (h : r.checked p = some (c, k)) : k.inLimits := by
  unfold CounterSet.checked at h
  split at h
  · split at h
    · cases h
    · split at h
      next range =>
        cases h
        simp only [Bool.and_eq_true, decide_eq_true_eq] at range
        obtain ⟨⟨⟨⟨⟨⟨top, -⟩, lo⟩, hi⟩, -⟩, -⟩, -⟩ := range
        exact ⟨lo, hi, top⟩
      next => cases h
  · cases h

theorem keeps_takeCounterSet (s : State) (p : Port) (r : CounterSet) : s.Keeps (s.takeCounterSet p r) := by
  unfold State.takeCounterSet
  split
  · exact keeps_answer ..
  next c k checked =>
    split
    · exact keeps_answer ..
    · have holds : s.Keeps { s with queue := s.queue.map fun j => if j.counterHold = some c then { j with counterHold := none } else j } :=
        (State.Shrinks.mapQueue fun j _ => by split <;> rfl).keeps
      have set : s.Keeps (s.setCounter c k) :=
        (holds.trans (keeps_setEntry fun _ k' e => by cases e; exact checked_inLimits checked)).trans (keeps_retainCounters _)
      have clear (t : State) : t.Keeps (t.onPort p PortState.clearExhausted) :=
        (State.Shrinks.onPort fun b => by unfold PortState.clearExhausted; split <;> simpa).keeps
      exact (set.trans (keeps_accept ..)).trans (clear _)

theorem keeps_takeCounterFree (s : State) (p : Port) (n : Nat) : s.Keeps (s.takeCounterFree p n) := by
  unfold State.takeCounterFree
  split
  · exact keeps_answer ..
  · split
    · exact keeps_answer ..
    · split
      · exact keeps_answer ..
      · exact ((keeps_setEntry fun _ _ e => by cases e).trans (keeps_retainCounters _)).trans (keeps_accept ..)

theorem keeps_takeCounterQuery (s : State) (p : Port) (n : Nat) : s.Keeps (s.takeCounterQuery p n) := by
  unfold State.takeCounterQuery
  split
  · exact keeps_accept ..
  · split
    · exact keeps_accept ..
    · exact keeps_answer ..

/-! ### Draws -/

/-- A counter that gives its value stays within its limits (R39, R44). -/
theorem afterDraw_inLimits {k : Counter} (h : k.inLimits) : k.afterDraw.inLimits := by
  obtain ⟨lo, hi, top⟩ := h
  unfold Counter.afterDraw
  dsimp only
  split
  next within =>
    refine ⟨?_, ?_, top⟩ <;> dsimp only <;> omega
  next =>
    split
    · exact ⟨lo, hi, top⟩
    · refine ⟨?_, ?_, top⟩ <;> dsimp only <;> split <;> omega

theorem keeps_drawOne (s : State) (c : CounterNo) : s.Keeps (s.drawOne c) := by
  unfold State.drawOne
  split
  · exact .refl s
  next k hk =>
    extract_lets t
    have draw : s.Keeps t := keeps_setEntry fun limits k' e => by cases e; exact afterDraw_inLimits ((limits c).1 k hk)
    split
    · exact draw.trans (shrinks_post t _ _).keeps
    · exact draw

theorem keeps_drawAll (s : State) (f : Form) : s.Keeps (s.drawAll f) := by
  unfold State.drawAll
  split
  · exact .refl s
  · exact .trans (.foldl keeps_drawOne _ s) (keeps_retainCounters _)

/-- Draws leave the labels in flight (R45). -/
theorem drawAll_inFlight (s : State) (f : Form) : (s.drawAll f).labelsInFlight = s.labelsInFlight := by
  have one (s : State) (c : CounterNo) : (s.drawOne c).labelsInFlight = s.labelsInFlight := by
    unfold State.drawOne
    split
    · rfl
    · dsimp only
      split <;> rfl
  unfold State.drawAll
  split
  · rfl
  · exact foldl_keeps (fun s t => t.labelsInFlight = s.labelsInFlight) (fun _ => rfl) (fun h k => k.trans h) one f.counters s

theorem shrinks_drawFails (s : State) (j : Job) (c : CounterNo) : s.Shrinks (s.drawFails j c) := by
  unfold State.drawFails
  extract_lets held posted
  have hold : s.Shrinks held := .onJob fun _ => rfl
  refine (hold.trans (shrinks_post .. : held.Shrinks posted)).trans ?_
  split
  · split
    · exact shrinks_post ..
    · exact .refl _
  · exact .refl _

/-! ### Label starts -/

/-- A label begun where there is room for one more in flight (R99 to R101). -/
theorem keeps_beginLabel {s t : State} (h : s.Keeps t) (room : s.labelsBounded → t.labelsInFlight < 8) (job copy : Nat)
    (values : Values) : s.Keeps (t.beginLabel job copy values) where
  __ := h
  labels b := by
    have := room b
    simp only [State.labelsBounded, State.labelsInFlight, State.beginLabel, List.length_append, List.length_singleton] at *
    omega

theorem keeps_startRedo {s : State} {e : RedoEntry} {rest : List RedoEntry} (redo : s.redo = e :: rest) : s.Keeps (s.startRedo e rest) := by
  have fewer : ({ s with redo := rest } : State).labelsInFlight + 1 = s.labelsInFlight := by
    simp only [State.labelsInFlight, redo, List.length_cons]
    omega
  refine keeps_beginLabel (State.Shrinks.of_labels (s := s) ?_).keeps (fun b => ?_) _ _ _
  · exact (Nat.le_succ _).trans fewer.le
  · have : s.labelsInFlight ≤ 8 := b
    show ({ s with redo := rest } : State).labelsInFlight < 8
    omega

theorem keeps_startCopy {s : State} (room : s.labelsInFlight < 8) (j : Job) : s.Keeps (s.startCopy j) := by
  unfold State.startCopy
  split
  · exact .refl s
  next f _ =>
    split
    · exact (shrinks_drawFails ..).keeps
    · extract_lets values drawn
      have draws : s.Keeps drawn ∧ drawn.labelsInFlight = s.labelsInFlight := by
        unfold drawn
        split
        · exact ⟨.refl s, rfl⟩
        · exact ⟨keeps_drawAll s f, drawAll_inFlight s f⟩
      obtain ⟨keeps, inFlight⟩ := draws
      have composes : drawn.Shrinks (drawn.onJob j.number fun j => { j with composed := j.composed + 1 }) := .onJob fun _ => rfl
      exact keeps_beginLabel (keeps.trans composes.keeps) (fun _ => composes.inFlight.trans_lt (inFlight.trans_lt room)) ..

/-- The composer's asking starts a label only where one more may be in flight (R99). -/
theorem keeps_answerAsk {s : State} (asks : s.composerAsks = true) : s.Keeps s.answerAsk := by
  unfold State.answerAsk
  split
  next redo => exact keeps_startRedo redo
  next redo =>
    have room : s.labelsInFlight < 8 := by
      simp only [State.composerAsks, redo, Bool.and_eq_true, List.isEmpty_nil, Bool.not_true, Bool.false_or, decide_eq_true_eq] at asks
      exact asks.2
    split
    · exact keeps_startCopy room _
    · exact .refl s

theorem shrinks_takeBuffer (s : State) : s.Shrinks s.takeBuffer := by
  unfold State.takeBuffer
  split
  · exact .refl s
  · split
    · split
      · exact .of_eq
      · exact .refl s
    · exact .refl s

theorem shrinks_finishFill (s : State) : s.Shrinks s.finishFill := by
  unfold State.finishFill
  split
  · split
    · split
      · exact .refl s
      · extract_lets values rendered cells filled counted
        have fills : s.Shrinks filled := .of_eq
        have counts : filled.Shrinks counted := by
          unfold counted
          split
          · exact .of_eq (labels := by simp)
          · exact .refl _
        refine (fills.trans counts).trans ?_
        split
        · exact .of_eq
        · exact .refl _
    · exact .refl s
  · exact .refl s

end Sys2Proof.Machine
end

section
/-! PROOFS. Jobs opened, and values and contributions taken in, keep the names and the value store. -/

namespace Sys2Proof.Machine

/-! ### One entry of a list replaced, found by its key -/

/-- Where keys are distinct, an update of the entries with one member's key is an update of that member alone. -/
theorem map_of_key {α κ : Type} [DecidableEq κ] (key : α → κ) {l : List α} (nodup : (l.map key).Nodup) {a : α} (mem : a ∈ l) :
    ∃ x y, l = x ++ a :: y ∧ ∀ g : α → α, l.map (fun b => if key b = key a then g b else b) = x ++ g a :: y := by
  obtain ⟨x, y, rfl⟩ := List.append_of_mem mem
  refine ⟨x, y, rfl, fun g => ?_⟩
  simp only [List.map_append, List.map_cons] at nodup ⊢
  obtain ⟨-, tail, apart⟩ := List.nodup_append.mp nodup
  have head := (List.nodup_cons.mp tail).1
  have before : ∀ b ∈ x, key b ≠ key a := fun b hb => apart _ (List.mem_map_of_mem hb) _ (List.mem_cons_self ..)
  have after : ∀ b ∈ y, key b ≠ key a := fun b hb e => head (e ▸ List.mem_map_of_mem hb)
  have keep {z : List α} (h : ∀ b ∈ z, key b ≠ key a) : z.map (fun b => if key b = key a then g b else b) = z := by
    conv_rhs => rw [← List.map_id z]
    exact List.map_congr_left fun b hb => if_neg (h b hb)
  simp only [keep before, keep after, if_true]

/-- The sum of a measure after such an update. -/
theorem sum_map_of_key {α κ : Type} [DecidableEq κ] (key : α → κ) {l : List α} (nodup : (l.map key).Nodup) {a : α} (mem : a ∈ l)
    (g : α → α) (w : α → Nat) :
    ((l.map fun b => if key b = key a then g b else b).map w).sum + w a = (l.map w).sum + w (g a) := by
  obtain ⟨x, y, e, h⟩ := map_of_key key nodup mem
  rw [h, e]
  simp only [List.map_append, List.map_cons, List.sum_append, List.sum_cons]
  omega

/-- Such an update that keeps the key keeps the list of keys. -/
theorem map_key_of_key {α κ : Type} [DecidableEq κ] (key : α → κ) (l : List α) {k : κ} {g : α → α}
    (same : ∀ b, key b = k → key (g b) = k) : (l.map fun b => if key b = k then g b else b).map key = l.map key := by
  rw [List.map_map]
  refine List.map_congr_left fun b _ => ?_
  simp only [Function.comp_apply]
  split
  next e => rw [same b e, e]
  next => rfl

/-! ### A job's values replaced -/

/-- An update of a job that its queue finds by number: it keeps the job's number and key, keeps its fields apart, and what it adds to
the value store is room for. -/
theorem keeps_onJob {s : State} {j : Job} (mem : j ∈ s.queue) {f : Job → Job} (number : ∀ k, (f k).number = k.number)
    (key : ∀ k, (f k).key = k.key) (fields : ∀ k, k.fieldsDistinct → (f k).fieldsDistinct)
    (room : j.fieldsDistinct → s.valuesBounded → s.valuesUsed + (f j).valueChars ≤ valueStore + j.valueChars) :
    s.Keeps (s.onJob j.number f) where
  __ := State.Keeps.refl s
  queue h := by simpa only [State.queueBounded, length_onJob_queue] using h
  names h := by
    obtain ⟨numbers, distinct, entries, keys, forms⟩ := h
    refine ⟨?_, fun k hk => ?_, entries, fun k hk => ?_, forms⟩
    · rw [State.onJob, map_key_of_key Job.number s.queue fun b e => (number b).trans e]
      exact numbers
    · obtain ⟨b, hb, rfl⟩ := List.mem_map.mp hk
      split
      · exact fields b (distinct b hb)
      · exact distinct b hb
    · obtain ⟨b, hb, rfl⟩ := List.mem_map.mp hk
      split
      · rw [key]
        exact keys b hb
      · exact keys b hb
  values h v := by
    have sum := sum_map_of_key Job.number h.1 mem f Job.valueChars
    have := room (h.2.1 j mem) v
    simp only [State.valuesBounded, State.valuesUsed, State.onJob] at *
    omega

/-- Room for a value in place of one of `old` characters (R60). -/
theorem valuesUsed_of_storeTakes {s : State} {old new : Nat} (h : s.storeTakes old new = true) (v : s.valuesBounded) :
    s.valuesUsed + new ≤ valueStore + old := by
  have room : new ≤ s.valuesFree + old := by simpa [State.storeTakes] using h
  unfold State.valuesFree at room
  have bound : s.valuesUsed ≤ valueStore := v
  omega

/-- A value stored for a field keeps a job's fields apart (R61). -/
theorem putData_fieldsDistinct {j : Job} (h : j.fieldsDistinct) (n : Nat) (v : Text) : (j.putData n v).fieldsDistinct := by
  refine ⟨?_, h.2⟩
  unfold Job.putData
  dsimp only
  split
  next =>
    rw [map_key_of_key (fun d : Nat × Text => d.1) j.data (g := fun _ => (n, v)) fun _ _ => rfl]
    exact h.1
  next new =>
    have none : j.data.find? (fun d => d.1 == n) = none :=
      Option.map_eq_none_iff.mp (Option.not_isSome_iff_eq_none.mp new)
    have other : ∀ d ∈ j.data, d.1 ≠ n := fun d hd => by simpa using List.find?_eq_none.mp none d hd
    rw [List.map_append]
    exact List.nodup_append.mpr ⟨h.1, by simp, by simpa using other⟩

/-- What a value stored for a field adds to the value store (R60, R61). -/
theorem putData_valueChars {j : Job} (h : j.fieldsDistinct) (n : Nat) (v : Text) :
    (j.putData n v).valueChars + (j.dataValue? n).elim 0 List.length = j.valueChars + v.length := by
  unfold Job.putData Job.valueChars
  cases found : j.data.find? (fun d => d.1 == n) with
  | none =>
    simp [Job.dataValue?, found]
    omega
  | some d =>
    obtain rfl : d.1 = n := by simpa using List.find?_some found
    have sum := sum_map_of_key (fun d : Nat × Text => d.1) h.1 (List.mem_of_find?_eq_some found) (fun _ => (d.1, v)) (fun d => d.2.length)
    simp [Job.dataValue?, found] at sum ⊢
    omega

theorem keeps_takeFieldData (s : State) (p : Port) (n : Nat) (v : Text) : s.Keeps (s.takeFieldData p n v) := by
  unfold State.takeFieldData
  split
  · exact keeps_answer ..
  · split
    · exact keeps_answer ..
    next j found =>
      split
      · exact keeps_answer ..
      · split
        · exact keeps_answer ..
        · split
          · exact keeps_answer ..
          next takes =>
            refine .trans (keeps_onJob (f := (·.putData n v)) (List.mem_of_find?_eq_some found) (fun _ => rfl) (fun _ => rfl)
              (fun k d => putData_fieldsDistinct d n v) fun d b => ?_) (keeps_accept ..)
            have := putData_valueChars d n v
            have := valuesUsed_of_storeTakes (by simpa using takes) b
            omega

/-- A contribution stored in a job keeps its fields apart (R81). -/
theorem putContrib_fieldsDistinct {j : Job} (h : j.fieldsDistinct) (c : Contribution) : (j.putContrib c).fieldsDistinct := by
  refine ⟨h.1, ?_⟩
  unfold Job.putContrib
  dsimp only
  split
  next =>
    rw [map_key_of_key Contribution.field j.contribs (g := fun _ => c) fun _ _ => rfl]
    exact h.2
  next new =>
    have other : ∀ x ∈ j.contribs, x.field ≠ c.field := by simpa using new
    rw [List.map_append]
    exact List.nodup_append.mpr ⟨h.2, by simp, by simpa using other⟩

/-- What a contribution stored in a job adds to the value store (R60, R81). -/
theorem putContrib_valueChars {j : Job} (h : j.fieldsDistinct) (c : Contribution) :
    (j.putContrib c).valueChars + j.contribLength c.field = j.valueChars + c.value.length := by
  unfold Job.putContrib Job.valueChars Job.contribLength
  cases found : j.contribs.find? (fun x => x.field == c.field) with
  | none =>
    have other : ∀ x ∈ j.contribs, x.field ≠ c.field := by simpa using found
    have none : j.contribs.any (fun x => x.field == c.field) = false := by simpa using other
    simp [none]
    omega
  | some d =>
    have same : d.field = c.field := by simpa using List.find?_some found
    have mem := List.mem_of_find?_eq_some found
    have any : j.contribs.any (fun x => x.field == c.field) = true := List.any_eq_true.mpr ⟨d, mem, by simpa using same⟩
    have sum := sum_map_of_key Contribution.field h.2 mem (fun _ => c) (fun x => x.value.length)
    simp only [same] at sum
    simp only [any, if_true, Option.elim_some]
    omega

theorem shrinks_mergeFilled (s : State) (n : Nat) : s.Shrinks (s.mergeFilled n) := .onJob fun j => by split <;> rfl

theorem keeps_contributeToJob {s : State} (p : Port) (r : Contribute) {j : Job} (mem : j ∈ s.queue) :
    s.Keeps (s.contributeToJob p r j) := by
  unfold State.contributeToJob
  split
  · exact keeps_answer ..
  · split
    · exact keeps_answer ..
    · split
      · exact keeps_answer ..
      next takes =>
        refine .trans (.trans (keeps_onJob (f := (·.putContrib { field := r.field, port := p, value := r.value })) mem
          (fun _ => rfl) (fun _ => rfl) (fun k d => putContrib_fieldsDistinct d _) fun d b => ?_)
          (shrinks_mergeFilled ..).keeps) (keeps_accept ..)
        have := putContrib_valueChars d { field := r.field, port := p, value := r.value }
        have := valuesUsed_of_storeTakes (by simpa using takes) b
        dsimp only at *
        omega

/-! ### The contribution pool -/

/-- What a pool entry is found by (R83, R84). -/
def PoolEntry.name (e : PoolEntry) : Text × Port × Nat := (e.key, e.port, e.field)

theorem isFor_iff (e : PoolEntry) (key : Text) (p : Port) (field : Nat) : e.isFor key p field = true ↔ e.name = (key, p, field) := by
  simp [PoolEntry.isFor, PoolEntry.name, and_assoc]

/-- The pool changed to one within its capacity, of distinct entries, none with a queued job's key, and within the value store. -/
theorem keeps_of_pool {s : State} {l : List PoolEntry} (bound : s.poolBounded → l.length ≤ 24)
    (distinct : (s.pool.map PoolEntry.name).Nodup → (l.map PoolEntry.name).Nodup)
    (keys : ∀ e ∈ l, e ∉ s.pool → ∀ j ∈ s.queue, j.key ≠ some e.key)
    (room : (s.pool.map PoolEntry.name).Nodup → s.valuesBounded → { s with pool := l }.valuesUsed ≤ valueStore) :
    s.Keeps { s with pool := l } where
  __ := State.Keeps.refl s
  pool := bound
  names h := by
    obtain ⟨numbers, fields, entries, apart, forms⟩ := h
    refine ⟨numbers, fields, distinct entries, fun j hj e he => ?_, forms⟩
    by_cases old : e ∈ s.pool
    · exact apart j hj e old
    · exact keys e he old j hj
  values h := room h.2.2.1

/-- The pool entry a CONTRIBUTE makes (R84). -/
def Contribute.entry (r : Contribute) (p : Port) : PoolEntry := { key := r.key, port := p, field := r.field, value := r.value, age := 0 }

/-- An entry of the same key, port and field is replaced in its place (R84). -/
theorem pooled_of_mem {s : State} {p : Port} {r : Contribute} {e : PoolEntry} (mem : e ∈ s.pool) (same : e.name = (r.entry p).name) :
    s.pooled p r = { s with pool := s.pool.map fun x => if x.name = e.name then r.entry p else x } := by
  have any : s.pool.any (·.isFor r.key p r.field) = true := List.any_eq_true.mpr ⟨e, mem, (isFor_iff ..).mpr same⟩
  unfold State.pooled
  dsimp only
  rw [if_pos any]
  congr 2
  funext x
  exact if_congr (by rw [isFor_iff, same]; rfl) rfl rfl

/-- A new entry goes to the end of the pool (R84). -/
theorem pooled_of_new {s : State} {p : Port} {r : Contribute} (new : ∀ e ∈ s.pool, e.name ≠ (r.entry p).name) :
    s.pooled p r = { s with pool := s.pool ++ [r.entry p] } := by
  have none : ¬ s.pool.any (·.isFor r.key p r.field) = true := fun any => by
    obtain ⟨e, mem, same⟩ := List.any_eq_true.mp any
    exact new e mem ((isFor_iff ..).mp same)
  unfold State.pooled
  dsimp only
  rw [if_neg none]
  rfl

theorem keeps_contributeToPool {s : State} (p : Port) (r : Contribute) (free : s.jobWithKey? r.key = none) :
    s.Keeps (s.contributeToPool p r) := by
  have keys : ∀ j ∈ s.queue, j.key ≠ some r.key := by simpa [State.jobWithKey?] using free
  unfold State.contributeToPool
  split
  next e found =>
    have mem := List.mem_of_find?_eq_some found
    have same : e.name = (r.entry p).name :=
      (isFor_iff ..).mp (List.find?_some (p := fun e : PoolEntry => e.isFor r.key p r.field) found)
    split
    · exact keeps_answer ..
    next takes =>
      refine .trans ?_ (keeps_accept ..)
      rw [pooled_of_mem mem same]
      refine keeps_of_pool (fun b => (List.length_map ..).trans_le b) (fun d => ?_) (fun x hx new => ?_) fun d b => ?_
      · rwa [map_key_of_key PoolEntry.name s.pool (g := fun _ => r.entry p) fun _ _ => same.symm]
      · obtain ⟨y, hy, rfl⟩ := List.mem_map.mp hx
        split at new
        next e => rw [if_pos e]; exact keys
        next => exact absurd hy new
      · have sum := sum_map_of_key PoolEntry.name d mem (fun _ => r.entry p) fun e => e.value.length
        have := valuesUsed_of_storeTakes (by simpa using takes) b
        simp only [State.valuesUsed, Contribute.entry] at this sum ⊢
        omega
  next missing =>
    have new : ∀ e ∈ s.pool, e.name ≠ (r.entry p).name := fun e he k => List.find?_eq_none.mp missing e he ((isFor_iff ..).mpr k)
    split
    · exact keeps_answer ..
    · split
      · exact keeps_answer ..
      next room takes =>
        refine .trans ?_ (keeps_accept ..)
        rw [pooled_of_new new]
        refine keeps_of_pool (fun b => ?_) (fun d => ?_) (fun x hx fresh => ?_) fun d b => ?_
        · simp only [List.length_append, List.length_singleton]
          omega
        · rw [List.map_append]
          exact List.nodup_append.mpr ⟨d, by simp, by simpa using new⟩
        · obtain old | rfl := by simpa using hx
          · exact absurd old fresh
          · exact keys
        · have := valuesUsed_of_storeTakes (by simpa using takes) b
          simp only [State.valuesUsed, List.map_append, List.sum_append, List.map_cons, List.map_nil, List.sum_cons, List.sum_nil,
            Contribute.entry] at this ⊢
          omega

theorem keeps_takeContribute (s : State) (p : Port) (r : Contribute) : s.Keeps (s.takeContribute p r) := by
  unfold State.takeContribute
  split
  · exact keeps_answer ..
  · split
    next found => exact keeps_contributeToJob p r (List.mem_of_find?_eq_some found)
    next free => exact keeps_contributeToPool p r free

end Sys2Proof.Machine
end

section
/-! PROOFS. Jobs opened and closed keep the capacities and the names: the number of a new job is free, and the entries moved into it from
the pool are of distinct fields. -/

namespace Sys2Proof.Machine

/-! ### The number of a new job -/

/-- The number `k` tries on from `n` (R57). -/
theorem iterate_nextNumber (n k : Nat) (hk : k ≤ 4095) :
    nextNumber^[k] n = if k = 0 then n else if n + k ≤ 4095 then n + k else if 4095 < n then k else n + k - 4095 := by
  induction k with
  | zero => simp
  | succ k ih =>
    rw [Function.iterate_succ_apply']
    replace ih := ih (by omega)
    generalize nextNumber^[k] n = m at ih ⊢
    rw [nextNumber, if_neg (Nat.succ_ne_zero k)]
    split_ifs at ih ⊢ <;> omega

/-- Where the number found is a queued job's, so is every number tried (R57). -/
theorem tried_of_freeNumber {queue : List Job} {fuel n : Nat} (h : freeNumber queue fuel n ∈ queue.map Job.number) (k : Nat)
    (hk : k ≤ fuel) : nextNumber^[k] n ∈ queue.map Job.number := by
  induction fuel generalizing n k with
  | zero =>
    obtain rfl : k = 0 := by omega
    exact h
  | succ fuel ih =>
    unfold freeNumber at h
    split at h
    next taken =>
      cases k with
      | zero =>
        obtain ⟨j, hj, e⟩ := List.any_eq_true.mp taken
        exact List.mem_map.mpr ⟨j, hj, by simpa using e⟩
      | succ k => exact ih h k (by omega)
    next free =>
      obtain ⟨j, hj, e⟩ := List.mem_map.mp h
      exact absurd (List.any_eq_true.mpr ⟨j, hj, by simpa using e⟩) free

/-- With fewer than 17 jobs queued, 17 tries find a number that none of them has (R57). -/
theorem freeNumber_free {queue : List Job} (room : queue.length < 17) (n : Nat) : freeNumber queue 17 n ∉ queue.map Job.number := by
  intro taken
  have distinct : ((List.range 17).map fun k => nextNumber^[k] n).Nodup := by
    refine List.Nodup.map_on (fun a ha b hb e => ?_) List.nodup_range
    rw [List.mem_range] at ha hb
    rw [iterate_nextNumber n a (by omega), iterate_nextNumber n b (by omega)] at e
    split_ifs at e <;> omega
  have tried : ((List.range 17).map fun k => nextNumber^[k] n) ⊆ queue.map Job.number := fun m hm => by
    obtain ⟨k, hk, rfl⟩ := List.mem_map.mp hm
    exact tried_of_freeNumber taken k (List.mem_range.mp hk).le
  have := (List.subperm_of_subset distinct tried).length_le
  simp only [List.length_map, List.length_range] at this
  omega

/-! ### A new job's place -/

/-- A new job is put among the queued ones, which keep their order (R59). -/
theorem placeJob_perm (j : Job) (queue : List Job) : (placeJob j queue).Perm (j :: queue) := by
  unfold placeJob
  split
  · exact List.perm_append_singleton ..
  · refine List.perm_middle.trans ?_
    rw [List.take_append_drop]

/-- A change of the new job alone can be made before it is placed (R59). -/
theorem map_placeJob {j : Job} {queue : List Job} (free : j.number ∉ queue.map Job.number) {g : Job → Job} (cls : (g j).cls = j.cls) :
    (placeJob j queue).map (fun k => if k.number = j.number then g k else k) = placeJob (g j) queue := by
  have keep {l : List Job} (sub : l ⊆ queue) : l.map (fun k => if k.number = j.number then g k else k) = l := by
    conv_rhs => rw [← List.map_id l]
    refine List.map_congr_left fun k hk => if_neg fun e => free ?_
    exact List.mem_map.mpr ⟨k, sub hk, e⟩
  unfold placeJob
  rw [cls]
  split
  · simp [keep (List.Subset.refl queue)]
  · simp [keep (List.take_subset ..), keep (List.drop_subset ..)]

/-- A job taken into the queue with what it takes out of the pool (R54, R58, R86). -/
theorem keeps_addJob {s : State} {j : Job} {queue : List Job} {pool : List PoolEntry} (perm : queue.Perm (j :: s.queue))
    (room : s.queue.length < 16) (free : j.number ∉ s.queue.map Job.number) (sub : pool.Sublist s.pool)
    (fields : s.namesDistinct → j.fieldsDistinct) (key : ∀ e ∈ pool, j.key ≠ some e.key)
    (chars : j.valueChars + (pool.map fun e => e.value.length).sum ≤ (s.pool.map fun e => e.value.length).sum) :
    s.Keeps { s with queue := queue, pool := pool } where
  __ := State.Keeps.refl s
  queue _ := by
    have := perm.length_eq
    rw [List.length_cons] at this
    show queue.length ≤ 16
    omega
  pool b := sub.length_le.trans b
  names h := by
    have ⟨numbers, distinct, entries, apart, forms⟩ := h
    have mem {k : Job} (hk : k ∈ queue) : k = j ∨ k ∈ s.queue := List.mem_cons.mp (perm.subset hk)
    refine ⟨((perm.map _).nodup_iff).mpr (List.nodup_cons.mpr ⟨free, numbers⟩), fun k hk => ?_, entries.sublist (sub.map _),
      fun k hk e he => ?_, forms⟩
    · obtain rfl | old := mem hk
      · exact fields h
      · exact distinct k old
    · obtain rfl | old := mem hk
      · exact key e he
      · exact apart k old e (sub.subset he)
  values _ v := by
    have sum := (perm.map Job.valueChars).sum_eq
    simp only [List.map_cons, List.sum_cons] at sum
    simp only [State.valuesBounded, State.valuesUsed] at v ⊢
    omega

/-! ### The sweep of the pool -/

/-- The contributions a job on a form takes over from the pool entries with its key (R86). -/
def State.moved (s : State) (f : Form) (key : Text) : List Contribution :=
  ((s.pool.filter (fun e => e.key == key)).filter f.admits).map fun e => { field := e.field, port := e.port, value := e.value }

/-- What a sweep of the pool does (R86). -/
theorem sweepPool_eq (s : State) (n : Nat) (f : Form) (key : Text) :
    s.sweepPool n f key =
      ((({ s with pool := s.pool.filter (fun e => e.key != key) } : State).onJob n fun j =>
        { j with contribs := j.contribs ++ s.moved f key }).refuseContribs
          ((s.pool.filter (fun e => e.key == key)).filter fun e => !f.admits e)).mergeFilled n := rfl

/-- The port of a pool entry a form admits is the one its field of that number takes contributions from (R79, R86). -/
theorem admits_field {f : Form} {e : PoolEntry} (h : f.admits e = true) :
    ∃ x ∈ f.fields, x.number = e.field ∧ x.source = .contrib e.port := by
  obtain ⟨x, hx⟩ := Option.isSome_iff_exists.mp h
  have found := List.find?_some hx
  simp only [Bool.and_eq_true, beq_iff_eq] at found
  exact ⟨x, List.mem_of_find?_eq_some hx, found⟩

/-- The contributions taken over from the pool are for distinct fields (R55, R86). -/
theorem moved_nodup {s : State} {f : Form} (entries : (s.pool.map PoolEntry.name).Nodup) (numbers : f.numbersDistinct) (key : Text) :
    ((s.moved f key).map Contribution.field).Nodup := by
  unfold State.moved
  rw [List.map_map]
  refine List.Nodup.map_on (fun a ha b hb e => ?_) (((entries.of_map _).filter _).filter _)
  obtain ⟨a1, a2⟩ := List.mem_filter.mp ha
  obtain ⟨b1, b2⟩ := List.mem_filter.mp hb
  obtain ⟨a1, ka⟩ := List.mem_filter.mp a1
  obtain ⟨b1, kb⟩ := List.mem_filter.mp b1
  obtain ⟨x, hx, nx, sx⟩ := admits_field a2
  obtain ⟨y, hy, ny, sy⟩ := admits_field b2
  have same : a.field = b.field := e
  have field : x = y := List.inj_on_of_nodup_map numbers hx hy (by rw [nx, ny, same])
  have port : a.port = b.port := Source.contrib.inj (sx.symm.trans (field ▸ sy))
  refine List.inj_on_of_nodup_map entries a1 b1 ?_
  rw [beq_iff_eq] at ka kb
  simp only [PoolEntry.name, ka, kb, port, same]

/-- A sweep takes out of the pool at least what it moves (R60, R86). -/
theorem moved_chars (s : State) (f : Form) (key : Text) :
    ((s.moved f key).map fun c => c.value.length).sum + ((s.pool.filter (fun e => e.key != key)).map fun e => e.value.length).sum ≤
      (s.pool.map fun e => e.value.length).sum := by
  have split := ((List.filter_append_perm (fun e : PoolEntry => e.key == key) s.pool).map fun e => e.value.length).sum_eq
  have moved : ((s.moved f key).map fun c => c.value.length).sum ≤
      ((s.pool.filter (fun e => e.key == key)).map fun e => e.value.length).sum := by
    unfold State.moved
    rw [List.map_map]
    exact (List.filter_sublist.map _).sum_le_sum fun _ _ => Nat.zero_le _
  simp only [List.map_append, List.sum_append] at split
  simp only [bne]
  omega

/-- A sweep for a job that is queued finds nothing to move, since no pool entry has a queued job's key (R86). -/
theorem keeps_sweepPool {s : State} {n : Nat} {f : Form} {key : Text} (none : s.namesDistinct → ∀ e ∈ s.pool, e.key ≠ key) :
    s.Keeps (s.sweepPool n f key) := by
  have filter : s.Keeps { s with pool := s.pool.filter fun e => e.key != key } := (State.Shrinks.filterPool _).keeps
  rw [sweepPool_eq]
  refine .trans (.trans ?_ (shrinks_refuseContribs ..).keeps) (shrinks_mergeFilled ..).keeps
  by_cases empty : s.moved f key = []
  · refine filter.trans (State.Shrinks.onJob fun j => ?_).keeps
    simp [Job.core, empty]
  · have clash : ¬ s.namesDistinct := fun names => empty <| by
      have : s.pool.filter (fun e => e.key == key) = [] := List.filter_eq_nil_iff.mpr fun e he => by simpa using none names e he
      simp [State.moved, this]
    exact { filter with
      queue := fun b => (length_onJob_queue ..).trans_le b
      names := fun names => absurd names clash
      values := fun names => absurd names clash }

/-! ### JOB-OPEN and JOB-CLOSE -/

/-- JOB-OPEN is refused while the queue is full (R58). -/
theorem room_of_openRefusal {s : State} {p : Port} {r : JobOpen} {h : HeadProfile} (none : s.openRefusal p r h = none) :
    s.queue.length < 16 := by
  unfold State.openRefusal at none
  split at none
  · cases none
  split at none
  · cases none
  split at none
  · cases none
  split at none
  · cases none
  split at none
  · cases none
  split at none
  · cases none
  split at none
  · cases none
  next room => omega

/-- The record of a job opened with contributions taken over from the pool (R55, R86). -/
def JobOpen.jobWith (r : JobOpen) (number : Nat) (origin : Port) (contribs : List Contribution) : Job :=
  { r.job number origin with contribs := contribs }

/-- A job opened on a form with distinct field numbers, while the queue has room (R58, R86). -/
theorem keeps_openJob {s : State} {p : Port} {r : JobOpen} {f : Form} (room : s.queue.length < 16)
    (form : s.activeForm r.form = some f) : s.Keeps (s.openJob p r f) := by
  have free : s.nextFreeNumber ∉ s.queue.map Job.number := freeNumber_free (by omega) _
  unfold State.openJob
  extract_lets n opened
  split
  next key =>
    have add : s.Keeps { s with queue := placeJob (r.job n p) s.queue, pool := s.pool } :=
      keeps_addJob (placeJob_perm ..) room free (.refl _) (fun _ => ⟨.nil, .nil⟩) (fun e _ => by simp [JobOpen.job, key])
        (Nat.zero_add _).le
    exact add.trans (State.Shrinks.trans .of_eq (.onPort id)).keeps
  next k key =>
    have moved (names : s.namesDistinct) : (r.jobWith n p (s.moved f k)).fieldsDistinct :=
      ⟨.nil, moved_nodup names.2.2.1 (numbersDistinct_of_slot (formsDistinct_of_names names) (form?_of_active? form)) k⟩
    have chars : (r.jobWith n p (s.moved f k)).valueChars = ((s.moved f k).map fun c => c.value.length).sum := Nat.zero_add _
    have add : s.Keeps { s with queue := placeJob (r.jobWith n p (s.moved f k)) s.queue, pool := s.pool.filter fun e => e.key != k } :=
      keeps_addJob (placeJob_perm ..) room free List.filter_sublist moved
        (fun e he same => by simpa [Option.some.inj (key.symm.trans same)] using (List.mem_filter.mp he).2) (chars ▸ moved_chars s f k)
    have placed : (opened.queue.map fun i => if i.number = n then { i with contribs := i.contribs ++ s.moved f k } else i) =
        placeJob (r.jobWith n p (s.moved f k)) s.queue :=
      map_placeJob (j := r.job n p) (g := fun i => { i with contribs := i.contribs ++ s.moved f k }) free rfl
    have swept : ({ opened with pool := s.pool.filter fun e => e.key != k } : State).onJob n
        (fun i => { i with contribs := i.contribs ++ s.moved f k }) =
          { opened with queue := placeJob (r.jobWith n p (s.moved f k)) s.queue, pool := s.pool.filter fun e => e.key != k } :=
      congrArg (fun queue => ({ opened with queue := queue, pool := s.pool.filter fun e => e.key != k } : State)) placed
    refine .trans (.trans (b := State.onJob _ _ _) ?_ (shrinks_refuseContribs ..).keeps) (shrinks_mergeFilled ..).keeps
    refine swept ▸ add.trans (State.Shrinks.trans (.onPort (p := p) (f := fun q => { q with discard := false }) id) .of_eq).keeps

theorem keeps_takeJobOpen (s : State) (p : Port) (r : Option JobOpen) : s.Keeps (s.takeJobOpen p r) := by
  unfold State.takeJobOpen
  split
  · exact keeps_answer ..
  · exact keeps_answer ..
  · split
    · exact keeps_answer ..
    next none form => exact (keeps_openJob (room_of_openRefusal none) form).trans (keeps_accept ..)
    · exact keeps_answer ..

/-- A job of the queue closed (R62, R87). -/
theorem keeps_closeJob {s : State} {j : Job} (mem : j ∈ s.queue) : s.Keeps (s.closeJob j) := by
  unfold State.closeJob
  extract_lets closed
  have close : s.Shrinks closed := .onJob fun _ => rfl
  have timer (t : State) (f : Form) : t.Shrinks (t.startTimer j.number f) := .onJob fun _ => rfl
  split
  · exact close.keeps
  next f _ =>
    refine .trans (close.keeps.trans ?_) (timer _ f).keeps
    split
    · exact .refl _
    next k key =>
      refine keeps_sweepPool fun names e he same => ?_
      have queued : { j with closed := true } ∈ closed.queue := List.mem_map.mpr ⟨j, mem, if_pos rfl⟩
      exact names.2.2.2.1 _ queued e he (by rw [same]; exact key)

theorem keeps_takeJobClose (s : State) (p : Port) : s.Keeps (s.takeJobClose p) := by
  unfold State.takeJobClose
  split
  · exact keeps_answer ..
  · split
    · exact keeps_answer ..
    next found => exact (keeps_closeJob (List.mem_of_find?_eq_some found)).trans (keeps_accept ..)

end Sys2Proof.Machine
end

section
/-! PROOFS. Every command but a power-up keeps the capacities, a power-up keeps them where the retained image follows the forms, and so
does every step (O56). -/

namespace Sys2Proof.Machine

/-! ### Outcomes -/

/-- A command's outcome keeps the capacities of the state it starts from. -/
def State.KeepsInto (s : State) (o : Host.Outcome State Fault Refusal) : Prop := ∀ t, o = .next t → s.Keeps t

theorem keepsInto_next {s t : State} (h : s.Keeps t) : s.KeepsInto (.next t) := fun _ e => by cases e; exact h

theorem keepsInto_running {s : State} {f : State → State} (h : s.Keeps (f s)) : s.KeepsInto (s.running f) := by
  unfold State.running
  split
  · exact keepsInto_next (.refl s)
  · exact keepsInto_next h

theorem keepsInto_takeRecord {s : State} {p : Port} {kind : Byte} {body : List Byte} {act : State → State}
    (h : ∀ t : State, t.Keeps (act t)) : s.KeepsInto (s.takeRecord p kind body act) := by
  refine keepsInto_running ?_
  split
  · exact (shrinks_taken s p).keeps.trans (h _)
  · exact .refl s

theorem keepsInto_record {α : Type} {s : State} {p : Port} {k : Kind} {body : List Byte} {parse : List Byte → Option α}
    {act : α → State → State} (h : ∀ (r : α) (t : State), t.Keeps (act r t)) : s.KeepsInto (s.record p k body parse act) := by
  refine keepsInto_takeRecord fun t => ?_
  split
  · exact (shrinks_reply ..).keeps
  · exact h _ t

/-! ### The other records -/

/-- An effect that makes nothing grow, and its reply. -/
theorem State.Shrinks.keeps_accept {s t : State} (h : s.Shrinks t) (p : Port) (k : Kind) (d : List Byte) : s.Keeps (t.accept p k d) :=
  (h.trans (shrinks_accept t p k d)).keeps

theorem keeps_takeHeadProfile (s : State) (p : Port) (h : HeadProfile) : s.Keeps (s.takeHeadProfile p h) := by
  have load : s.Shrinks (s.loadProfile h) := by
    unfold State.loadProfile
    extract_lets t
    refine .trans (.of_eq : s.Shrinks t) ?_
    split
    · exact shrinks_joinFaults ..
    · exact .refl t
  unfold State.takeHeadProfile
  split
  · exact keeps_answer ..
  · split
    · exact keeps_answer ..
    · exact load.keeps.trans (keeps_accept ..)

theorem keeps_takeRunSettings (s : State) (p : Port) (r : Option RunSettings) : s.Keeps (s.takeRunSettings p r) := by
  have load (r : RunSettings) : s.Shrinks (s.loadSettings r) := by
    unfold State.loadSettings
    extract_lets t u
    split
    · refine .trans (.of_eq : s.Shrinks u) ?_
      split
      · exact .refl u
      · exact shrinks_enterFault u
    · exact .of_eq
  unfold State.takeRunSettings
  split
  · exact keeps_answer ..
  · exact keeps_answer ..
  · split
    · exact keeps_answer ..
    · split
      · exact keeps_answer ..
      · exact (load _).keeps.trans (keeps_accept ..)

theorem keeps_takeRetainScope (s : State) (p : Port) (scope : Option Scope) : s.Keeps (s.takeRetainScope p scope) := by
  unfold State.takeRetainScope
  split
  · exact keeps_answer ..
  · exact (keeps_retainScope ..).trans (keeps_accept ..)

theorem keeps_takePortSettings (s : State) (p : Port) (t : Option PortSettings) : s.Keeps (s.takePortSettings p t) := by
  unfold State.takePortSettings
  split
  · exact keeps_answer ..
  · exact State.Shrinks.keeps_accept (.onPort id) ..

theorem shrinks_dropOpenJob (s : State) (p : Port) : s.Shrinks (s.dropOpenJob p) := by
  unfold State.dropOpenJob
  split
  · exact .refl s
  · exact shrinks_leaveQueue ..

theorem keeps_takeJobHold (s : State) (p : Port) (n : Nat) : s.Keeps (s.takeJobHold p n) := by
  unfold State.takeJobHold
  split
  · exact keeps_answer ..
  · split
    · exact keeps_answer ..
    · split
      · exact keeps_answer ..
      · exact State.Shrinks.keeps_accept (by exact .onJob fun _ => rfl) ..

theorem keeps_takeJobRelease (s : State) (p : Port) (n : Nat) : s.Keeps (s.takeJobRelease p n) := by
  unfold State.takeJobRelease
  split
  · exact keeps_answer ..
  · split
    · exact keeps_answer ..
    · exact State.Shrinks.keeps_accept (by exact .onJob fun _ => rfl) ..

theorem shrinks_cancelJob (s : State) (j : Job) : s.Shrinks (s.cancelJob j) := by
  unfold State.cancelJob
  split
  · exact shrinks_leaveQueue ..
  · exact ((shrinks_cancelInRing ..).trans (shrinks_settle _)).trans (shrinks_cancelAtEngine ..)

theorem keeps_takeJobCancel (s : State) (p : Port) (n : Nat) : s.Keeps (s.takeJobCancel p n) := by
  unfold State.takeJobCancel
  split
  · exact keeps_answer ..
  · split
    · exact keeps_answer ..
    · exact (shrinks_cancelJob ..).keeps_accept ..

theorem keeps_takeJobQuery (s : State) (p : Port) (n : Nat) : s.Keeps (s.takeJobQuery p n) := by
  have clear (t : State) : t.Shrinks (t.onPort p PortState.clearHeld) :=
    .onPort fun b => by unfold PortState.clearHeld; split <;> simpa
  unfold State.takeJobQuery
  split
  · exact keeps_answer ..
  · split
    · exact ((shrinks_accept ..).trans (clear _)).keeps
    · split
      · exact keeps_answer ..
      · exact ((shrinks_accept ..).trans (clear _)).keeps

theorem keeps_takeFeed (s : State) (p : Port) : s.Keeps (s.takeFeed p) := by
  unfold State.takeFeed
  split
  · exact (shrinks_startFeed s).keeps_accept ..
  · exact keeps_answer ..

theorem keeps_takeDryRunOn (s : State) (p : Port) : s.Keeps (s.takeDryRunOn p) := by
  have enter : s.Shrinks s.enterDry := .trans .of_eq (shrinks_dryTake _)
  unfold State.takeDryRunOn
  split
  · exact enter.keeps_accept ..
  · exact keeps_answer ..

theorem keeps_takeDryRunOff (s : State) (p : Port) : s.Keeps (s.takeDryRunOff p) := by
  have leave : s.Shrinks s.askToLeaveDry := by
    unfold State.askToLeaveDry
    split
    · exact .of_eq
    · exact shrinks_leaveDry s
  unfold State.takeDryRunOff
  split
  · exact leave.keeps_accept ..
  · exact keeps_answer ..

theorem queried_reports (q : PortState) : q.queried.reports = q.reports := by
  unfold PortState.queried
  split <;> simp

theorem reportTaken_reports (q : PortState) : q.reportTaken.reports = q.reports.tail := by
  unfold PortState.reportTaken
  dsimp only
  split <;> simp

theorem keeps_takePositionWatch (s : State) (p : Port) (w : PositionWatch) : s.Keeps (s.takePositionWatch p w) := by
  unfold State.takePositionWatch
  split
  · exact State.Shrinks.keeps_accept (.onPort id) ..
  · split
    · exact keeps_answer ..
    · split
      · exact keeps_answer ..
      · split
        · exact keeps_answer ..
        · exact State.Shrinks.keeps_accept (.onPort id) ..

theorem keeps_resetPort (s : State) (p : Port) : s.Keeps (s.resetPort p) :=
  ((shrinks_dropOpenJob s p).keeps.trans (keeps_dropDefining _ p)).trans (State.Shrinks.onPort fun _ => Nat.zero_le _).keeps

/-! ### The lines, the timers and the sensors -/

theorem discardFrame_reports (q : PortState) : q.discardFrame.reports = q.reports := by simp [PortState.discardFrame]

theorem receive_reports (q : PortState) (lost b : Byte) : (q.receive lost b).reports = q.reports := by
  unfold PortState.receive
  split
  · unfold PortState.overrun
    split
    · rfl
    · split
      · rfl
      · exact discardFrame_reports q
  · split
    · simp
    · simp
    · exact discardFrame_reports q

theorem timeout_reports (q : PortState) : q.timeout.reports = q.reports := by
  unfold PortState.timeout
  split
  · rfl
  · exact discardFrame_reports q

theorem shrinks_receive (s : State) (p : Port) (char : Byte) : s.Shrinks (s.receive p char) := by
  unfold State.receive
  extract_lets t
  refine .trans (.onPort fun h => by rwa [receive_reports] : s.Shrinks t) ?_
  split
  · exact .of_eq
  · exact .refl t

theorem shrinks_expire (s : State) (j : Job) (policy : MergePolicy) : s.Shrinks (s.expire j policy) := by
  unfold State.expire
  extract_lets t
  have stop : s.Shrinks t := .onJob fun _ => rfl
  refine stop.trans ?_
  split
  · exact .onJob fun _ => rfl
  · refine .trans ?_ (shrinks_post ..)
    exact .onJob fun _ => rfl
  · exact (shrinks_placeCompletion ..).trans (shrinks_leaveQueue ..)

theorem shrinks_timerExpires (s : State) (n : Nat) : s.Shrinks (s.timerExpires n) := by
  unfold State.timerExpires
  split
  · exact .refl s
  · split
    · exact .refl s
    · split
      · exact shrinks_expire ..
      · exact .refl s

theorem shrinks_dropEntries (s : State) (out : PoolEntry → Bool) : s.Shrinks (s.dropEntries out) :=
  .trans (.filterPool _) (shrinks_refuseContribs ..)

/-- A second for the pool changes ages and drops entries (R85). -/
theorem shrinks_poolSecond (s : State) : s.Shrinks s.poolSecond := by
  have age : s.Shrinks { s with pool := s.pool.map fun e => { e with age := e.age + 1 } } :=
    { State.Shrinks.refl s with pool := by simp only [List.map_map]; exact .refl _ }
  exact age.trans (shrinks_dropEntries ..)

theorem shrinks_judgeReading (s : State) : s.Shrinks s.judgeReading := by
  unfold State.judgeReading
  extract_lets f t cleared raised
  split
  · exact shrinks_joinFaults ..
  · split
    · exact shrinks_leaveFaults ..
    · refine .trans (.of_eq : s.Shrinks t) ?_
      split
      · exact (shrinks_leaveFaults t _).trans (shrinks_joinFaults ..)
      · exact (shrinks_joinFaults t _).trans (shrinks_leaveFaults ..)

theorem shrinks_labelTaken (s : State) : s.Shrinks s.labelTaken := by
  unfold State.labelTaken
  split
  · exact .refl s
  · exact (shrinks_endAtHead ..).trans (shrinks_retract _)

/-! ### The reset input -/

/-- The image a command leaves is that of a state that keeps the capacities. -/
theorem imageAfter_keeps {s : State} {o : Host.Outcome State Fault Refusal} (h : s.KeepsInto o) :
    ∃ t, s.Keeps t ∧ s.imageAfter o = t.retained.image := by
  cases o with
  | next t => exact ⟨t, h t rfl, rfl⟩
  | fault r => exact ⟨s, .refl s, rfl⟩
  | refused r => exact ⟨s, .refl s, rfl⟩

theorem keepsInto_composerAsk (s : State) : s.KeepsInto (execComposerAsk s) := by
  refine keepsInto_running ?_
  split
  next asks => exact keeps_answerAsk asks
  next => exact .refl s

/-- The image the rewrite under way would end with is that of a state that keeps the capacities (R51). -/
theorem rewrittenImage_keeps (s : State) : ∃ t, s.Keeps t ∧ s.rewrittenImage = t.retained.image := by
  unfold State.rewrittenImage
  split
  · exact imageAfter_keeps (keepsInto_composerAsk s)
  · exact imageAfter_keeps (keepsInto_record fun r t => keeps_takeCounterSet t _ r)
  · exact imageAfter_keeps (keepsInto_record fun r t => keeps_takeCounterFree t _ r)
  · exact imageAfter_keeps (keepsInto_record fun r t => keeps_takeRetainScope t _ r)
  · exact imageAfter_keeps (keepsInto_record fun _ t => keeps_takeFormEnd t _)
  · exact imageAfter_keeps (keepsInto_record fun r t => keeps_takeFormDelete t _ r)
  · exact imageAfter_keeps (keepsInto_record fun r t => keeps_takeFormBegin t _ r)
  · exact ⟨s, .refl s, rfl⟩

/-- A rewrite cut leaves each counter and form of the image as the old one or the new one, so each is sound (R51; log 3). -/
theorem keeps_cutRewrite (s : State) : s.Keeps s.cutRewrite := by
  obtain ⟨t, keeps, goal⟩ := rewrittenImage_keeps s
  unfold State.cutRewrite
  split
  · exact .refl s
  · obtain ⟨counters, -, forms⟩ := cutAt_parts s.retained.image s.rewrittenImage (Config.partWritten s.freeTick)
    rw [goal] at counters forms ⊢
    exact { State.Keeps.refl s with
      counters := fun h c => by
        refine ⟨(h c).1, fun k hk => ?_⟩
        obtain old | new := counters c
        · exact (h c).2 k (old ▸ hk)
        · exact (keeps.counters h c).2 k (new ▸ hk)
      names := fun h => by
        have before := formsDistinct_of_names h
        have after := formsDistinct_of_names (keeps.names h)
        refine ⟨h.1, h.2.1, h.2.2.1, h.2.2.2.1, fun i => ⟨(before i).1, fun f hf => ?_⟩⟩
        obtain old | new | ⟨-, gone⟩ := forms i
        · exact (before i).2 f (old ▸ hf)
        · exact (after i).2 f (new ▸ hf)
        · cases gone.symm.trans hf }

theorem shrinks_hold (s : State) : s.Shrinks s.hold :=
  { State.Shrinks.refl s with reports := fun b p => by simpa [State.hold, State.port] using b p }

/-! ### Every command -/

/-- Every command but a power-up keeps the capacities. -/
theorem exec_keeps {c : Instr} (running : ∀ low lid, c ≠ .powerUp low lid) (s : State) : s.KeepsInto (exec c s) := by
  cases c with
  | headProfile p => exact keepsInto_record fun r t => keeps_takeHeadProfile t p r
  | runSettings p => exact keepsInto_record fun r t => keeps_takeRunSettings t p r
  | retainScope p => exact keepsInto_record fun r t => keeps_takeRetainScope t p r
  | portSettings p => exact keepsInto_record fun r t => keeps_takePortSettings t p r
  | formBegin p => exact keepsInto_record fun r t => keeps_takeFormBegin t p r
  | fieldDef p => exact keepsInto_record fun r t => keeps_takeFieldDef t p r
  | stencilDef p => exact keepsInto_record fun r t => keeps_takeStencilDef t p r
  | formEnd p => exact keepsInto_record fun _ t => keeps_takeFormEnd t p
  | formDelete p => exact keepsInto_record fun r t => keeps_takeFormDelete t p r
  | formQuery p => exact keepsInto_record fun r t => keeps_takeFormQuery t p r
  | counterSet p => exact keepsInto_record fun r t => keeps_takeCounterSet t p r
  | counterFree p => exact keepsInto_record fun r t => keeps_takeCounterFree t p r
  | counterQuery p => exact keepsInto_record fun r t => keeps_takeCounterQuery t p r
  | jobOpen p => exact keepsInto_record fun r t => keeps_takeJobOpen t p r
  | fieldData p => exact keepsInto_record fun (r : Nat × Text) t => keeps_takeFieldData t p r.1 r.2
  | jobClose p => exact keepsInto_record fun _ t => keeps_takeJobClose t p
  | discard p =>
    exact keepsInto_record fun _ t => ((shrinks_dropOpenJob t p).trans (.onPort id)).keeps_accept ..
  | jobHold p => exact keepsInto_record fun r t => keeps_takeJobHold t p r
  | jobRelease p => exact keepsInto_record fun r t => keeps_takeJobRelease t p r
  | jobCancel p => exact keepsInto_record fun r t => keeps_takeJobCancel t p r
  | jobQuery p => exact keepsInto_record fun r t => keeps_takeJobQuery t p r
  | contribute p => exact keepsInto_record fun r t => keeps_takeContribute t p r
  | feed p => exact keepsInto_record fun _ t => keeps_takeFeed t p
  | dryRunOn p => exact keepsInto_record fun _ t => keeps_takeDryRunOn t p
  | dryRunOff p => exact keepsInto_record fun _ t => keeps_takeDryRunOff t p
  | engineQuery p => exact keepsInto_record fun _ t => keeps_accept t p _ _
  | vectorQuery p =>
    exact keepsInto_record fun _ t => ((shrinks_accept ..).trans (.onPort fun h => by rwa [queried_reports])).keeps
  | reportRead p =>
    exact keepsInto_record fun _ t => ((shrinks_accept ..).trans
      (.onPort fun h => by rw [reportTaken_reports, List.length_tail]; omega)).keeps
  | positionWatch p => exact keepsInto_record fun w t => keeps_takePositionWatch t p w
  | portReset p => exact keepsInto_record fun _ t => (keeps_resetPort t p).trans (keeps_accept ..)
  | unknownKind p kind body =>
    show s.KeepsInto (if (kindOf kind).isSome then .next s else _)
    split
    · exact keepsInto_next (.refl s)
    · exact keepsInto_takeRecord fun t => (shrinks_reply ..).keeps
  | receiveByte p char error =>
    unfold exec execReceiveByte
    refine keepsInto_running ?_
    split
    · exact .refl s
    · exact (shrinks_receive ..).keeps
  | frameTimeout p =>
    unfold exec execFrameTimeout
    exact keepsInto_running (State.Shrinks.onPort fun h => by rwa [timeout_reports]).keeps
  | lineBreak p =>
    unfold exec execLineBreak
    exact keepsInto_running (keeps_resetPort s p)
  | deviceResetAssert cut =>
    unfold exec execDeviceResetAssert
    refine keepsInto_running ?_
    split
    · exact (keeps_cutRewrite s).trans (shrinks_hold _).keeps
    · exact (shrinks_hold s).keeps
  | powerUp low lid => exact absurd rfl (running low lid)
  | sensorReading t v =>
    unfold exec execSensorReading
    exact keepsInto_running (State.Shrinks.trans .of_eq (shrinks_judgeReading _)).keeps
  | lidSwitchOpen =>
    unfold exec execLidSwitchOpen
    exact keepsInto_running (shrinks_joinFaults ..).keeps
  | lidSwitchClosed =>
    unfold exec execLidSwitchClosed
    exact keepsInto_running (shrinks_leaveFaults ..).keeps
  | composerAsk => exact keepsInto_composerAsk s
  | bandTake =>
    unfold exec execBandTake
    exact keepsInto_running (shrinks_takeBuffer s).keeps
  | bandFillComplete =>
    unfold exec execBandFillComplete
    refine keepsInto_running ?_
    split
    · exact ((shrinks_finishFill s).trans (shrinks_engineLook _)).keeps
    · exact .refl s
  | mergeTimerExpiry n =>
    unfold exec execMergeTimerExpiry
    exact keepsInto_running (shrinks_timerExpires s n).keeps
  | poolEntryDiscard key p field =>
    unfold exec execPoolEntryDiscard
    exact keepsInto_running (shrinks_dropEntries ..).keeps
  | forwardStep gap =>
    unfold exec execForwardStep
    exact keepsInto_running (shrinks_forwardStep s gap).keeps
  | strobePhaseEnd | phaseGapEnd | dotClassTimeEnd =>
    simp only [exec, execStrobePhaseEnd, execPhaseGapEnd, execDotClassTimeEnd]
    refine keepsInto_running ?_
    exact (State.Shrinks.of_eq).keeps
  | takenSensorSample absent =>
    unfold exec execTakenSensorSample
    refine keepsInto_running ?_
    split
    · exact (State.Shrinks.of_eq).keeps
    · exact .refl s
  | labelTaken =>
    unfold exec execLabelTaken
    refine keepsInto_running ?_
    split
    · exact (shrinks_labelTaken s).keeps
    · exact .refl s
  | backFeedStep =>
    unfold exec execBackFeedStep
    exact keepsInto_running (shrinks_backFeed s).keeps
  | dryLineConsumed =>
    unfold exec execDryLineConsumed
    exact keepsInto_running (shrinks_consumeLine s).keeps
  | mergeTimerSecond n =>
    unfold exec execMergeTimerSecond
    refine keepsInto_running (State.Shrinks.keeps ?_)
    exact .onJob fun _ => rfl

end Sys2Proof.Machine
end

section
/-! PROOFS. A power-up and the step: every capacity is kept (O56). -/

namespace Sys2Proof.Machine

/-! ### A power-up -/

/-- A slot after power-up is EMPTY, or holds as ACTIVE the form the retained area has for it (R21, R53). -/
theorem powerOn_slot (s : State) (r : Retained) (lost lid : Bool) (i : Fin 32) :
    (s.powerOn r lost lid).slots[i] = .empty ∨
      ∃ f, r.image.forms[i] = some f ∧ (s.powerOn r lost lid).slots[i] = .active f := by
  unfold State.powerOn
  dsimp only
  split
  · simp
  · cases h : r.image.forms[i] with
    | none =>
      left
      simpa using congrArg (fun o => o.elim Slot.empty Slot.active) h
    | some f =>
      right
      exact ⟨f, rfl, by simpa using congrArg (fun o => o.elim Slot.empty Slot.active) h⟩

/-- The counters after a power-up are the retained ones (R53). -/
theorem powerOn_countersInLimits {s : State} {r : Retained} (h : ∀ (c : CounterNo) k, r.image.counters[c] = some k → k.inLimits)
    (lost lid : Bool) : (s.powerOn r lost lid).countersInLimits := fun c => ⟨h c, h c⟩

theorem powerOn_namesDistinct {s : State} {r : Retained} (h : ∀ (i : Fin 32) f, r.image.forms[i] = some f → f.numbersDistinct)
    (lost lid : Bool) : (s.powerOn r lost lid).namesDistinct := by
  refine ⟨.nil, fun j hj => (List.not_mem_nil hj).elim, .nil, fun j hj => (List.not_mem_nil hj).elim,
    fun i => ⟨fun f hf => ?_, h i⟩⟩
  obtain empty | ⟨g, hg, active⟩ := powerOn_slot s r lost lid i
  · rw [empty] at hf
    cases hf
  · rw [active] at hf
    cases hf
    exact h i _ hg

/-- A pool's use where no slot takes more of it (R5). -/
theorem poolUsed_le_of_slots {s t : State} {use : Form → Nat} (h : ∀ i : Fin 32, (t.slots[i]).uses use ≤ (s.slots[i]).uses use) :
    t.poolUsed use ≤ s.poolUsed use := by
  have eq (s : State) : s.poolUsed use = ((List.finRange 32).map fun i => (s.slots[i]).uses use).sum := by
    rw [poolUsed_eq]
    congr 1
    exact List.ext_getElem (by simp) fun n _ _ => by simp
  rw [eq, eq]
  exact List.sum_le_sum fun i _ => h i

/-- A power-up with a retained image that follows the forms takes no more of a pool than they do (R5, R53). -/
theorem powerOn_poolUsed {s : State} (h : s.imageFollows) (use : Form → Nat) (lost lid : Bool) :
    (s.powerOn s.retained lost lid).poolUsed use ≤ s.poolUsed use := by
  refine poolUsed_le_of_slots fun i => ?_
  obtain empty | ⟨f, retained, active⟩ := powerOn_slot s s.retained lost lid i
  · rw [empty]
    exact Nat.zero_le _
  · rw [active, Slot.uses, Slot.uses, h.2.1 i f retained]
    rfl

theorem powerOn_fresh_poolUsed (s : State) (use : Form → Nat) (lid : Bool) :
    (s.powerOn Image.fresh.sealed true lid).poolUsed use = 0 := by
  show ((Vector.replicate 32 Slot.empty).toList.map (Slot.uses use)).sum = 0
  simp [Slot.uses, Slot.form?]

/-- A power-up leaves a state with every capacity; with the counters and the forms sound where the retained area had them so (R53,
R186). -/
theorem powerUp_capacities (s : State) (low lid : Bool) :
    (s.powerUp low lid).reportsBounded ∧ (s.powerUp low lid).queueBounded ∧ (s.powerUp low lid).poolBounded ∧
    (s.powerUp low lid).edgesBounded ∧ (s.countersInLimits → (s.powerUp low lid).countersInLimits) ∧
    (s.powerUp low lid).labelsBounded ∧ (s.imageFollows → s.formPoolsBounded → (s.powerUp low lid).formPoolsBounded) ∧
    (s.namesDistinct → (s.powerUp low lid).namesDistinct) ∧ (s.powerUp low lid).valuesBounded := by
  have reports (r : Retained) (lost : Bool) : (s.powerOn r lost lid).reportsBounded := fun p => by
    show ((Vector.replicate 4 PortState.reset)[p]).reports.length ≤ 12
    simp [PortState.reset]
  unfold State.powerUp
  split
  · refine ⟨reports _ _, Nat.zero_le _, Nat.zero_le _, Nat.zero_le _, fun _ => ?_, Nat.zero_le _, fun _ _ => ?_, fun _ => ?_,
      Nat.zero_le _⟩
    · exact powerOn_countersInLimits (fun c k h => by simp [Image.sealed, Image.fresh] at h) _ _
    · simp [State.formPoolsBounded, powerOn_fresh_poolUsed]
    · exact powerOn_namesDistinct (fun i f h => by simp [Image.sealed, Image.fresh] at h) _ _
  · refine ⟨reports _ _, Nat.zero_le _, Nat.zero_le _, Nat.zero_le _, fun h => ?_, Nat.zero_le _, fun follows pools => ?_, fun h => ?_,
      Nat.zero_le _⟩
    · exact powerOn_countersInLimits (fun c => (h c).2) _ _
    · obtain ⟨fields, text, rows⟩ := pools
      exact ⟨(powerOn_poolUsed follows ..).trans fields, (powerOn_poolUsed follows ..).trans text,
        (powerOn_poolUsed follows ..).trans rows⟩
    · exact powerOn_namesDistinct (fun i => (formsDistinct_of_names h i).2) ..

/-! ### The step -/

/-- A second of idling keeps the capacities. -/
theorem shrinks_idle (s : State) : s.Shrinks s.idle := by
  unfold State.idle
  split
  · exact .refl s
  · exact shrinks_poolSecond s

/-- A step is a power-up, or it keeps the capacities. -/
theorem step_keeps_or_powersUp {s t : State} (h : step s = .next t) :
    s.Keeps t ∨ ∃ rest low lid, t = State.powerUp { s with pending := rest } low lid := by
  unfold step at h
  split at h
  next => exact .inl (keepsInto_next (shrinks_idle s).keeps t h)
  next c rest _ =>
    by_cases up : ∃ low lid, c = .powerUp low lid
    · obtain ⟨low, lid, rfl⟩ := up
      cases h
      exact .inr ⟨rest, low, lid, rfl⟩
    · have taken : s.Shrinks { s with pending := rest } := .of_eq
      exact .inl (taken.keeps.trans (exec_keeps (fun low lid e => up ⟨low, lid, e⟩) _ t h))

/-- Settles O56: what makes nothing grow keeps every capacity, each command that takes something in checks for room first, and a power-up
takes in what the retained area has. -/
theorem capacitiesAreKept : Obligations.CapacitiesAreKept := by
  intro s t h
  obtain keeps | ⟨rest, low, lid, rfl⟩ := step_keeps_or_powersUp h
  · exact ⟨keeps.reports, keeps.queue, keeps.pool, keeps.edges, keeps.counters, keeps.labels, fun _ => keeps.formPools, keeps.names,
      keeps.values⟩
  · obtain ⟨reports, queue, pool, edges, counters, labels, forms, names, values⟩ :=
      powerUp_capacities { s with pending := rest } low lid
    exact ⟨fun _ => reports, fun _ => queue, fun _ => pool, fun _ => edges, counters, fun _ => labels, forms, names, fun _ _ => values⟩

end Sys2Proof.Machine
end

section
/-! PROOFS. The bodies of the form records are read back as they were written (R14 to R16, R173, R174). -/

namespace Sys2Proof.Machine

/-! ### Reading packed values -/

theorem natAt_byte1 {n : Nat} (h : n ≤ 255) (l : List Byte) : natAt (byte1 n ++ l) 0 = n := toNat_byte n h

@[simp] theorem natAt_byte1_succ (n : Nat) (l : List Byte) (i : Nat) : natAt (byte1 n ++ l) (i + 1) = natAt l i := rfl

@[simp] theorem natAt_byte2_succ (n : Nat) (l : List Byte) (i : Nat) : natAt (byte2 n ++ l) (i + 2) = natAt l i := rfl

@[simp] theorem natAt_flag1_succ (b : Bool) (l : List Byte) (i : Nat) : natAt (flag1 b ++ l) (i + 1) = natAt l i := by cases b <;> rfl

@[simp] theorem nat2At_byte1_succ (n : Nat) (l : List Byte) (i : Nat) : nat2At (byte1 n ++ l) (i + 1) = nat2At l i := rfl

@[simp] theorem nat2At_byte2_succ (n : Nat) (l : List Byte) (i : Nat) : nat2At (byte2 n ++ l) (i + 2) = nat2At l i := rfl

@[simp] theorem nat2At_flag1_succ (b : Bool) (l : List Byte) (i : Nat) : nat2At (flag1 b ++ l) (i + 1) = nat2At l i := by
  cases b <;> rfl

/-- A number in two bytes is read back (R173). -/
theorem nat2At_byte2 {n : Nat} (h : n < 65536) (l : List Byte) : nat2At (byte2 n ++ l) 0 = n := by
  show (BitVec.ofNat 8 (n / 256)).toNat * 256 + (BitVec.ofNat 8 n).toNat = n
  simp only [BitVec.toNat_ofNat]
  omega

/-- A number in four bytes is read back (R173). -/
theorem nat4At_byte4 {n : Nat} (h : n < 4294967296) (l : List Byte) : nat4At (byte4 n ++ l) 0 = n := by
  show ((BitVec.ofNat 8 (n / 16777216)).toNat * 256 + (BitVec.ofNat 8 (n / 65536)).toNat) * 65536 +
    ((BitVec.ofNat 8 (n / 256)).toNat * 256 + (BitVec.ofNat 8 n).toNat) = n
  simp only [BitVec.toNat_ofNat]
  omega

theorem nat2At_append_right (a b : List Byte) (i : Nat) : nat2At (a ++ b) (a.length + i) = nat2At b i := by
  rw [nat2At, nat2At, natAt_append_right, Nat.add_assoc, natAt_append_right]

theorem nat4At_append_right (a b : List Byte) (i : Nat) : nat4At (a ++ b) (a.length + i) = nat4At b i := by
  rw [nat4At, nat4At, nat2At_append_right, Nat.add_assoc, nat2At_append_right]

/-- The bytes that stand behind a first part. -/
theorem sliceAt_append (a b c : List Byte) : sliceAt (a ++ b ++ c) a.length b.length = b := by
  rw [sliceAt, List.append_assoc, List.drop_left, List.take_left]

theorem choice2_toNat (b : Bool) : choice2 b.toNat false true = some b := by cases b <;> rfl

theorem parseByte_byte1 {n : Nat} (h : n ≤ 255) : parseByte (byte1 n) = some n := by
  simp only [parseByte, length_byte1, if_true, Option.some.injEq]
  exact toNat_byte n h

/-! ### Taking a record leaves the stores as they were -/

@[simp] theorem taken_slot (s : State) (p : Port) (n : Nat) : (s.taken p).slot n = s.slot n := rfl
@[simp] theorem taken_definingSlot (s : State) (p q : Port) : (s.taken p).definingSlot q = s.definingSlot q := rfl
@[simp] theorem taken_useCount (s : State) (p : Port) (n : Nat) : (s.taken p).useCount n = s.useCount n := rfl
@[simp] theorem taken_poolUsed (s : State) (p : Port) (use : Form → Nat) : (s.taken p).poolUsed use = s.poolUsed use := rfl
@[simp] theorem accept_slot (s : State) (p : Port) (k : Kind) (d : List Byte) (n : Nat) : (s.accept p k d).slot n = s.slot n := rfl
@[simp] theorem retainForm_slot (s : State) (m n : Nat) (o : Option Form) : (s.retainForm m o).slot n = s.slot n := by
  unfold State.retainForm
  split <;> rfl
@[simp] theorem accept_poolUsed (s : State) (p : Port) (k : Kind) (d : List Byte) (use : Form → Nat) :
    (s.accept p k d).poolUsed use = s.poolUsed use := rfl
@[simp] theorem retainForm_poolUsed (s : State) (n : Nat) (o : Option Form) (use : Form → Nat) :
    (s.retainForm n o).poolUsed use = s.poolUsed use := by
  unfold State.retainForm
  split <;> rfl

/-- A slot in range read after it is replaced. -/
theorem slot_setSlot_self (s : State) {n : Nat} (lo : 1 ≤ n) (hi : n ≤ 32) (x : Slot) : (s.setSlot n x).slot n = x := by
  obtain ⟨i, rfl⟩ := exists_slot lo hi
  simp [slot_succ, setSlot_succ]

/-- Another slot read after one is replaced. -/
theorem slot_setSlot_ne (s : State) {m n : Nat} (h : m ≠ n) (x : Slot) : (s.setSlot n x).slot m = s.slot m := by
  cases hn : slotIndex n with
  | none => simp only [State.setSlot, hn]
  | some i =>
    cases hm : slotIndex m with
    | none => simp only [State.slot, hm]
    | some j =>
      obtain rfl := slotIndex_eq_some.mp hn
      obtain rfl := slotIndex_eq_some.mp hm
      have ne : i.val ≠ j.val := fun e => h (by rw [e])
      rw [setSlot_succ, slot_succ, slot_succ]
      exact Vector.getElem_set_ne i.isLt j.isLt ne

/-! ### FORM-BEGIN -/

/-- A FORM-BEGIN within its ranges is read back (R2, R14, R173). -/
theorem parseFormBegin_body {r : FormBegin} (h : r.inRange = true) : parseFormBegin r.body = some (some r) := by
  obtain ⟨number, shared, length, width, planes, timeout, policy⟩ := r
  simp only [FormBegin.inRange, Bool.and_eq_true, decide_eq_true_eq, bne_iff_ne] at h
  obtain ⟨⟨⟨⟨⟨⟨⟨n1, n2⟩, l1⟩, l2⟩, w1⟩, w2⟩, planes0⟩, t⟩ := h
  have bits := planes.isLt
  have rest : ∃ k, policy.byte = byte1 k ∧ k ≤ 2 ∧ ([MergePolicy.fallback, .hold, .void])[k]? = some policy := by
    cases policy
    exacts [⟨0, rfl, by decide, rfl⟩, ⟨1, rfl, by decide, rfl⟩, ⟨2, rfl, by decide, rfl⟩]
  obtain ⟨k, policy_byte, k2, policy_at⟩ := rest
  have body : FormBegin.body ⟨number, shared, length, width, planes, timeout, policy⟩ =
      byte1 number ++ (flag1 shared ++ (byte2 length ++ (byte2 width ++ (byte1 planes.toNat ++ (byte1 timeout ++ (byte1 k ++ [])))))) := by
    simp [FormBegin.body, policy_byte]
  rw [body]
  simp only [parseFormBegin, flagAt, planesAt, natAt_byte1 (show number ≤ 255 by omega), natAt_byte1 (show planes.toNat ≤ 255 by omega),
    natAt_byte1 t, natAt_byte1 (show k ≤ 255 by omega), nat2At_byte2 (show length < 65536 by omega),
    nat2At_byte2 (show width < 65536 by omega), natAt_byte1_succ, natAt_byte2_succ, natAt_flag1_succ, nat2At_byte1_succ, nat2At_byte2_succ,
    nat2At_flag1_succ, natAt_flag1]
  simp [choice2_toNat, policy_at, show planes.toNat < 16 from bits, n1, n2, l1, l2, w1, w2, planes0]

/-- Settles O10: the body is read back, and of the branches of FORM-BEGIN each case takes its own. -/
theorem formBeginTakesTheSlot : Obligations.FormBeginTakesTheSlot := by
  intro s p r can range none
  have exec_eq : exec (.formBegin p r.body) s = .next ((s.taken p).takeFormBegin p (some r)) :=
    record_of_parsed (act := fun r s => s.takeFormBegin p r) can (parseFormBegin_body range)
  rw [exec_eq]
  refine ⟨fun empty => ?_, fun f active owner unused => ?_⟩
  · simp only [State.takeFormBegin, taken_definingSlot, none, taken_slot, empty]
    rfl
  · simp only [State.takeFormBegin, taken_definingSlot, none, taken_slot, active, taken_useCount, unused, owner,
      Option.isSome_none, bne_self_eq_false, Bool.false_eq_true, if_false, Nat.lt_irrefl]
    rfl

end Sys2Proof.Machine
end

section
/-! PROOFS. FIELD-DEF and STENCIL-DEF append what they carry, and take its storage from the pools (O11). -/

namespace Sys2Proof.Machine

/-! ### The parts of a FIELD-DEF -/

/-- A source's three bytes, as its code, its port or counter and its digit count (R174). -/
theorem sourceOf_bytes {x : Source} (h : x.inRange = true) (l : List Byte) :
    sourceOf (natAt (x.bytes ++ l) 0) (natAt (x.bytes ++ l) 1) (natAt (x.bytes ++ l) 2) = some x := by
  cases x with
  | fixed | job | copyIndex => rfl
  | contrib p =>
    have := p.isLt
    show sourceOf 2 (BitVec.ofNat 8 p.val).toNat 0 = _
    rw [toNat_byte _ (by omega), sourceOf, dif_pos this]
  | counter c k =>
    have := c.isLt
    simp only [Source.inRange, Bool.and_eq_true, decide_eq_true_eq] at h
    show sourceOf 3 (BitVec.ofNat 8 c.val).toNat (BitVec.ofNat 8 k).toNat = _
    rw [toNat_byte _ (by omega), toNat_byte _ (by omega), sourceOf, dif_pos this]
    simp [h]

theorem length_sourceBytes (x : Source) : x.bytes.length = 3 := by cases x <;> rfl

theorem rotationOf_byte (r : Rotation) (l : List Byte) : rotationOf (natAt (r.byte ++ l) 0) = some r := by cases r <;> rfl

theorem length_rotationByte (r : Rotation) : r.byte.length = 1 := by cases r <;> rfl

theorem length_kindBytes (k : KindPart) : k.code.length = 1 ∧ k.bytes.length = 9 := by
  cases k with
  | text font => cases font <;> exact ⟨rfl, rfl⟩
  | barcode n w height mod10 r readable boxWidth => cases mod10 <;> cases readable <;> exact ⟨rfl, rfl⟩
  | box | stamp => exact ⟨rfl, rfl⟩

/-- A kind part is read at its offset as it would be at the front. -/
theorem kindPartOf_append (code : Nat) (a b : List Byte) : kindPartOf code (a ++ b) a.length = kindPartOf code b 0 := by
  have at0 := natAt_append_right a b 0
  have two0 := nat2At_append_right a b 0
  simp only [Nat.add_zero] at at0 two0
  simp only [kindPartOf, natAt_append_right, nat2At_append_right, flagAt, at0, two0, Nat.zero_add]

/-- A kind part within its ranges is read back (R9 to R12, R174). -/
theorem kindPartOf_bytes {k : KindPart} (range : k.inRange = true) (l m : List Byte) :
    kindPartOf (natAt (k.code ++ l) 0) (k.bytes ++ m) 0 = some k := by
  cases k with
  | text font hs vs width =>
    simp only [KindPart.inRange, Bool.and_eq_true, decide_eq_true_eq] at range
    have font_at : ∃ c, font.byte = byte1 c ∧ c ≤ 2 ∧ ([Font.s, .m, .l])[c]? = some font := by
      cases font
      exacts [⟨0, rfl, by decide, rfl⟩, ⟨1, rfl, by decide, rfl⟩, ⟨2, rfl, by decide, rfl⟩]
    obtain ⟨c, byte, c2, at_c⟩ := font_at
    show kindPartOf 0 _ 0 = _
    simp only [KindPart.bytes, byte, List.append_assoc, kindPartOf, Nat.zero_add, natAt_byte1_succ, natAt_byte1 (show c ≤ 255 by omega),
      natAt_byte1 (show hs ≤ 255 by omega), natAt_byte1 (show vs ≤ 255 by omega), natAt_byte1 (show width ≤ 255 by omega)]
    simp [at_c, range]
  | barcode n w height mod10 r readable boxWidth =>
    simp only [KindPart.inRange, Bool.and_eq_true, decide_eq_true_eq] at range
    show kindPartOf 1 _ 0 = _
    simp only [KindPart.bytes, List.append_assoc, kindPartOf, flagAt, Nat.zero_add, natAt_byte1_succ, natAt_byte2_succ, natAt_flag1_succ,
      nat2At_byte1_succ, nat2At_byte2_succ, nat2At_flag1_succ, natAt_flag1, natAt_byte1 (show n ≤ 255 by omega),
      natAt_byte1 (show w ≤ 255 by omega), natAt_byte1 (show r ≤ 255 by omega), nat2At_byte2 (show height < 65536 by omega),
      nat2At_byte2 (show boxWidth < 65536 by omega), choice2_toNat]
    simp [range]
  | box w h border =>
    simp only [KindPart.inRange, Bool.and_eq_true, decide_eq_true_eq] at range
    show kindPartOf 2 _ 0 = _
    simp only [KindPart.bytes, List.append_assoc, kindPartOf, Nat.zero_add, natAt_byte2_succ, nat2At_byte2_succ,
      natAt_byte1 (show border ≤ 255 by omega), nat2At_byte2 (show w < 65536 by omega), nat2At_byte2 (show h < 65536 by omega)]
    simp [range]
  | stamp n w h =>
    simp only [KindPart.inRange, Bool.and_eq_true, decide_eq_true_eq] at range
    show kindPartOf 3 _ 0 = _
    simp only [KindPart.bytes, List.append_assoc, kindPartOf, Nat.zero_add, nat2At_byte1_succ, nat2At_byte2_succ,
      natAt_byte1 (show n ≤ 255 by omega), nat2At_byte2 (show w < 65536 by omega), nat2At_byte2 (show h < 65536 by omega)]
    simp [range]

/-- The bytes of a FIELD-DEF before its two texts (R174). -/
def Field.head (x : Field) : List Byte :=
  byte1 x.number ++ (x.part.code ++ (byte2 x.x ++ (byte2 x.y ++ (x.rotation.byte ++ (x.planeByte :: x.inkByte :: (byte1 x.rank ++
    (x.source.bytes ++ flag1 x.required)))))))

theorem length_fieldHead (x : Field) : x.head.length = 14 := by
  simp [Field.head, length_kindBytes, length_rotationByte, length_sourceBytes]

/-- A FIELD-DEF is its head, its two texts and its kind part (R174). -/
theorem fieldBody_eq (x : Field) : x.body = x.head ++ packText x.fixedText ++ packText x.fallback ++ x.part.bytes := by
  simp [Field.body, Field.head]

/-- What the head of a FIELD-DEF says is read back, whatever follows it (R174). -/
theorem read_fieldHead {x : Field} (h : x.inRange = true) (l : List Byte) :
    natAt (x.head ++ l) 0 = x.number ∧ kindPartOf (natAt (x.head ++ l) 1) (x.part.bytes ++ []) 0 = some x.part ∧
    nat2At (x.head ++ l) 2 = x.x ∧ nat2At (x.head ++ l) 4 = x.y ∧ rotationOf (natAt (x.head ++ l) 6) = some x.rotation ∧
    (x.head ++ l).getD 7 0 = x.planeByte ∧ (x.head ++ l).getD 8 0 = x.inkByte ∧ natAt (x.head ++ l) 9 = x.rank ∧
    sourceOf (natAt (x.head ++ l) 10) (natAt (x.head ++ l) 11) (natAt (x.head ++ l) 12) = some x.source ∧
    flagAt (x.head ++ l) 13 = some x.required := by
  simp only [Field.inRange, Bool.and_eq_true, decide_eq_true_eq] at h
  obtain ⟨⟨⟨⟨⟨⟨⟨⟨⟨⟨⟨-, number⟩, col⟩, line⟩, rank⟩, -⟩, -⟩, -⟩, part⟩, source⟩, -⟩, -⟩ := h
  have part_at := kindPartOf_bytes part [] []
  have source_at := sourceOf_bytes source []
  have rotation_at := rotationOf_byte x.rotation []
  have required_at : flagAt (flag1 x.required ++ l) 0 = some x.required := by rw [flagAt, natAt_flag1, choice2_toNat]
  have col_at := nat2At_byte2 (show x.x < 65536 by omega) []
  have line_at := nat2At_byte2 (show x.y < 65536 by omega) []
  unfold Field.head
  obtain ⟨c, code⟩ := List.length_eq_one_iff.mp (length_kindBytes x.part).1
  obtain ⟨t, rotation⟩ := List.length_eq_one_iff.mp (length_rotationByte x.rotation)
  obtain ⟨a, b, d, bytes⟩ := List.length_eq_three.mp (length_sourceBytes x.source)
  rw [code] at part_at ⊢
  rw [rotation] at rotation_at ⊢
  rw [bytes] at source_at ⊢
  exact ⟨toNat_byte _ (by omega), part_at, col_at, line_at, rotation_at, rfl, rfl, toNat_byte _ (by omega), source_at, required_at⟩

/-- A FIELD-DEF within its ranges is read back (R6, R15, R174). -/
theorem parseFieldDef_body {x : Field} (h : x.inRange = true) : parseFieldDef x.body = some (some x) := by
  have ranges := h
  simp only [Field.inRange, Bool.and_eq_true] at ranges
  obtain ⟨⟨⟨⟨⟨⟨⟨front, short⟩, brief⟩, set⟩, -⟩, -⟩, allowed⟩, contrib⟩ := ranges
  have texts : x.fixedText.length ≤ 64 ∧ x.fallback.length ≤ 16 := ⟨of_decide_eq_true short, of_decide_eq_true brief⟩
  have body : x.body = x.head ++ (packText x.fixedText ++ (packText x.fallback ++ x.part.bytes)) := by simp [fieldBody_eq]
  have length : x.body.length = 25 + x.fixedText.length + x.fallback.length := by
    simp [body, length_fieldHead, (length_kindBytes x.part).2]
    omega
  -- The lengths of the two texts stand where the layout has them.
  have text_at : natAt x.body 14 = x.fixedText.length := by
    rw [body, ← length_fieldHead x]
    exact (natAt_append_right _ _ 0).trans (toNat_byte _ (by omega))
  have fallback_at : natAt x.body (15 + x.fixedText.length) = x.fallback.length := by
    have front : (x.head ++ packText x.fixedText).length = 15 + x.fixedText.length := by simp [length_fieldHead]; omega
    rw [body, ← List.append_assoc, ← front]
    exact (natAt_append_right _ _ 0).trans (toNat_byte _ (by omega))
  have lengths : fieldDefLengths x.body = some (x.fixedText.length, x.fallback.length) := by
    simp only [fieldDefLengths, text_at, fallback_at, length]
    rw [if_pos (by simp; omega)]
  -- So do the texts and the kind part.
  have text : sliceAt x.body 15 x.fixedText.length = x.fixedText := by
    have cut := sliceAt_append (x.head ++ byte1 x.fixedText.length) x.fixedText (packText x.fallback ++ x.part.bytes)
    rw [List.length_append, length_fieldHead, length_byte1] at cut
    rw [show x.body = x.head ++ byte1 x.fixedText.length ++ x.fixedText ++ (packText x.fallback ++ x.part.bytes) by simp [body, packText]]
    exact cut
  have fallback : sliceAt x.body (16 + x.fixedText.length) x.fallback.length = x.fallback := by
    have cut := sliceAt_append (x.head ++ packText x.fixedText ++ byte1 x.fallback.length) x.fallback x.part.bytes
    have front : (x.head ++ packText x.fixedText ++ byte1 x.fallback.length).length = 16 + x.fixedText.length := by
      simp [length_fieldHead]; omega
    rw [front] at cut
    rw [fieldBody_eq, packText.eq_def x.fallback, ← List.append_assoc]
    exact cut
  have part : kindPartOf (natAt x.body 1) x.body (16 + x.fixedText.length + x.fallback.length) = some x.part := by
    have front : (x.head ++ packText x.fixedText ++ packText x.fallback).length = 16 + x.fixedText.length + x.fallback.length := by
      simp [length_fieldHead]; omega
    have code := (read_fieldHead h (packText x.fixedText ++ (packText x.fallback ++ x.part.bytes))).2.1
    rw [← body, List.append_nil, ← kindPartOf_append _ (x.head ++ packText x.fixedText ++ packText x.fallback), front,
      ← fieldBody_eq] at code
    exact code
  obtain ⟨number, code, col, line, rotation, planes, ink, rank, source, required⟩ :=
    read_fieldHead h (packText x.fixedText ++ (packText x.fallback ++ x.part.bytes))
  rw [← body] at number code col line rotation planes ink rank source required
  simp only [parseFieldDef, lengths, Option.map_some, number, col, line, rotation, planes, ink, rank, source, required, text,
    fallback, part]
  simp only [Option.bind_eq_bind, Option.bind_some]
  rw [if_pos]
  simp only [Bool.and_eq_true]
  exact ⟨⟨⟨⟨⟨front, short⟩, brief⟩, set⟩, allowed⟩, contrib⟩

/-! ### STENCIL-DEF -/

theorem length_rowsBytes (rows : List (BitVec 32)) : (rows.flatMap rowBytes).length = 4 * rows.length := by
  induction rows with
  | nil => rfl
  | cons r rows ih =>
    rw [List.flatMap_cons, List.length_append, ih, List.length_cons, rowBytes, length_byte4]
    omega

/-- The rows of a stencil are read back, column 0 the most significant bit of a row's first byte (R16). -/
theorem stencilRows_bytes (rows : List (BitVec 32)) : stencilRows rows.length (rows.flatMap rowBytes) = rows := by
  refine List.ext_getElem (by simp [stencilRows]) fun i _ hi => ?_
  have cut : rows.flatMap rowBytes = (rows.take i).flatMap rowBytes ++ (byte4 rows[i].toNat ++ (rows.drop (i + 1)).flatMap rowBytes) :=
    calc rows.flatMap rowBytes
        = (rows.take i ++ rows[i] :: rows.drop (i + 1)).flatMap rowBytes := by
          rw [← List.drop_eq_getElem_cons hi, List.take_append_drop]
      _ = _ := by rw [List.flatMap_append, List.flatMap_cons, rowBytes]
  have front : ((rows.take i).flatMap rowBytes).length = 4 * i := by
    rw [length_rowsBytes, List.length_take, min_eq_left hi.le]
  have row : nat4At (rows.flatMap rowBytes) (4 * i) = rows[i].toNat := by
    rw [cut, ← front]
    exact (nat4At_append_right _ _ 0).trans (nat4At_byte4 rows[i].isLt _)
  simp only [stencilRows, List.getElem_map, List.getElem_range, row]
  simp

/-- A STENCIL-DEF is read back (R16, R171). -/
theorem parseStencilDef_body {x : Stencil} (number : x.number ≤ 8) (rows : x.rows.length ≤ 64) :
    parseStencilDef x.body = some { number := x.number, count := x.rows.length, bytes := x.rows.flatMap rowBytes } := by
  have long : 2 ≤ x.body.length := by simp [Stencil.body]; omega
  have number_at : natAt x.body 0 = x.number := toNat_byte _ (by omega)
  have count_at : natAt x.body 1 = x.rows.length := toNat_byte _ (by omega)
  rw [parseStencilDef, if_pos long, number_at, count_at]
  rfl

/-! ### The definitions taken -/

/-- The form a port is defining, with its number. -/
theorem definingForm_of_slot {s : State} {p : Port} {n : Nat} {f : Form} (defining : s.definingSlot p = some n)
    (slot : s.slot n = .defining f) : s.definingForm p = some (n, f) := by
  simp [State.definingForm, defining, slot, Slot.form?]

@[simp] theorem taken_definingForm (s : State) (p q : Port) : (s.taken p).definingForm q = s.definingForm q := rfl

/-- Settles O11: the body is read back, every check passes, and the pools give what the new entry takes. -/
theorem definitionsAreAppended : Obligations.DefinitionsAreAppended := by
  refine ⟨fun s p n f x can range defining slot new fields text => ?_, fun s p n f x can n1 n8 r1 r64 defining slot new room => ?_⟩
  · obtain ⟨lo, hi, -⟩ := definingSlot_some defining
    have exec_eq : exec (.fieldDef p x.body) s = .next ((s.taken p).takeFieldDef p (some x)) :=
      record_of_parsed (act := fun r s => s.takeFieldDef p r) can (parseFieldDef_body range)
    have fresh : f.field? x.number = none := List.find?_eq_none.mpr fun y hy => by simpa using new y hy
    have room : ¬ (decide (s.fieldsFree < 1) || decide (s.textFree < x.fixedText.length + x.fallback.length)) = true := by
      simp only [Bool.or_eq_true, decide_eq_true_eq]
      omega
    have taken : (s.taken p).takeFieldDef p (some x) =
        ((s.taken p).setSlot n (.defining { f with fields := f.fields ++ [x] })).accept p .fieldDef [] := by
      simp only [State.takeFieldDef, taken_definingForm, definingForm_of_slot defining slot, fresh, Option.isSome_none,
        Bool.false_eq_true, if_false]
      exact if_neg room
    obtain ⟨usedFields, usedText, -⟩ := poolUsed_addField (s := s.taken p) lo hi slot x
    refine ⟨_, exec_eq, taken, ?_⟩
    rw [taken]
    simp only [fieldsFree_eq, textFree_eq, accept_poolUsed, taken_poolUsed] at usedFields usedText fields text ⊢
    omega
  · obtain ⟨lo, hi, -⟩ := definingSlot_some defining
    have exec_eq : exec (.stencilDef p x.body) s =
        .next ((s.taken p).takeStencilDef p { number := x.number, count := x.rows.length, bytes := x.rows.flatMap rowBytes }) :=
      record_of_parsed (act := fun r s => s.takeStencilDef p r) can (parseStencilDef_body n8 r64)
    have fresh : f.stencil? x.number = none := List.find?_eq_none.mpr fun y hy => by simpa using new y hy
    have taken : (s.taken p).takeStencilDef p { number := x.number, count := x.rows.length, bytes := x.rows.flatMap rowBytes } =
        ((s.taken p).setSlot n (.defining { f with stencils := f.stencils ++ [x] })).accept p .stencilDef [] := by
      simp only [State.takeStencilDef, taken_definingForm, definingForm_of_slot defining slot, fresh, Option.isSome_none, n1, n8, r1, r64,
        decide_true, Bool.and_self, Bool.not_true, Bool.or_self, Bool.false_eq_true, if_false, length_rowsBytes, ne_eq, not_true_eq_false,
        stencilRows_bytes]
      exact if_neg (Nat.not_lt.mpr room)
    obtain ⟨-, -, usedRows⟩ := poolUsed_addStencil (s := s.taken p) lo hi slot x
    refine ⟨_, exec_eq, taken, ?_⟩
    rw [taken]
    simp only [rowsFree_eq, accept_poolUsed, taken_poolUsed] at usedRows room ⊢
    omega

end Sys2Proof.Machine
end

section
/-! PROOFS. FORM-END and FORM-DELETE move the slot (O12). -/

namespace Sys2Proof.Machine

/-! ### FORM-END -/

/-- A form has a stencil of a number where one of its list does. -/
theorem stencil?_isSome {f : Form} {k : Nat} : (f.stencil? k).isSome = true ↔ ∃ y ∈ f.stencils, y.number = k := by
  simp [Form.stencil?, List.find?_isSome]

/-- A form may become ACTIVE when it has a field and every STAMP's stencil (R17). -/
theorem complete_iff (f : Form) : f.complete = true ↔
    f.fields ≠ [] ∧ ∀ x ∈ f.fields, ∀ k w h, x.part = .stamp k w h → ∃ y ∈ f.stencils, y.number = k := by
  have stamp (x : Field) : f.hasStencilOf x = true ↔ ∀ k w h, x.part = .stamp k w h → ∃ y ∈ f.stencils, y.number = k := by
    unfold Form.hasStencilOf
    split
    next n w h e =>
      rw [stencil?_isSome]
      refine ⟨fun found k w' h' e' => ?_, fun all => all n w h e⟩
      cases e.symm.trans e'
      exact found
    next other => exact ⟨fun _ k w h e => absurd e (other k w h), fun _ => rfl⟩
  simp only [Form.complete, Bool.and_eq_true, Bool.not_eq_true', List.isEmpty_eq_false_iff, List.all_eq_true, stamp, ne_eq]

theorem exec_formEnd {s : State} {p : Port} {n : Nat} {f : Form} (can : s.canTake p Kind.formEnd.byte [])
    (defining : s.definingSlot p = some n) (slot : s.slot n = .defining f) :
    exec (.formEnd p []) s = .next (if f.complete then (((s.taken p).setSlot n (.active f)).retainForm n (some f)).accept p .formEnd []
      else (s.taken p).answer p .formEnd .formIncomplete) := by
  have exec_eq : exec (.formEnd p []) s = .next ((s.taken p).takeFormEnd p) :=
    record_of_parsed (parse := parseEmpty) (act := fun _ s => s.takeFormEnd p) (r := ()) can rfl
  rw [exec_eq, State.takeFormEnd, taken_definingForm, definingForm_of_slot defining slot]

/-! ### FORM-DELETE -/

theorem exec_formDelete {s : State} {p : Port} {n : Nat} (can : s.canTake p Kind.formDelete.byte (byte1 n)) (hi : n ≤ 32) :
    exec (.formDelete p (byte1 n)) s = .next ((s.taken p).takeFormDelete p n) :=
  record_of_parsed (act := fun n s => s.takeFormDelete p n) can (parseByte_byte1 (by omega))

/-- A slot emptied gives its form's field storage back (R5, R18). -/
theorem fieldsFree_of_emptied {s t : State} {n : Nat} {f : Form} (lo : 1 ≤ n) (hi : n ≤ 32) (form : (s.slot n).form? = some f)
    (emptied : t.poolUsed Form.fieldsUsed = (s.setSlot n .empty).poolUsed Form.fieldsUsed)
    (bounded : s.poolUsed Form.fieldsUsed ≤ fieldPool) : t.fieldsFree = s.fieldsFree + f.fields.length := by
  have used := poolUsed_setSlot s Form.fieldsUsed lo hi .empty
  have given : (s.slot n).uses Form.fieldsUsed = f.fields.length := by rw [Slot.uses, form]; rfl
  have empty : Slot.uses Form.fieldsUsed .empty = 0 := rfl
  have bound : s.poolUsed Form.fieldsUsed ≤ 1024 := bounded
  rw [fieldsFree_eq, fieldsFree_eq, emptied]
  omega

/-- A port with no slot in DEFINING has no defining slot (R1). -/
theorem definingSlot_eq_none {s : State} {p : Port} (h : ∀ m g, s.slot m = .defining g → g.owner ≠ p) : s.definingSlot p = none := by
  cases e : s.definingSlot p with
  | none => rfl
  | some m =>
    obtain ⟨-, -, g, slot, owner⟩ := definingSlot_some e
    exact absurd owner (h m g slot)

/-- Settles O12: FORM-END by whether the form is complete, FORM-DELETE by the slot's state. -/
theorem formEndAndDeleteMoveTheSlot : Obligations.FormEndAndDeleteMoveTheSlot := by
  refine ⟨fun s p n f can defining slot => ?_, fun s p n f can lo hi slot owner unused => ?_, fun s p n f can lo hi slot owner => ?_⟩
  · rw [exec_formEnd can defining slot]
    refine ⟨fun fields stencils => ?_, fun none => ?_, fun x k w h hx part missing => ?_⟩
    · rw [if_pos ((complete_iff f).mpr ⟨fields, stencils⟩)]
    · rw [if_neg fun c => ((complete_iff f).mp c).1 none]
    · rw [if_neg fun c => ?_]
      obtain ⟨y, hy, number⟩ := ((complete_iff f).mp c).2 x hx k w h part
      exact missing y hy number
  · have taken : (s.taken p).takeFormDelete p n = (((s.taken p).setSlot n .empty).retainForm n none).accept p .formDelete [] := by
      rw [State.takeFormDelete, if_neg (by omega)]
      simp only [taken_slot, slot, owner, bne_self_eq_false, Bool.false_eq_true, if_false, taken_useCount, unused, Nat.lt_irrefl]
    refine ⟨_, exec_formDelete can hi, taken, ?_, fun bounded => ?_⟩
    · rw [taken, accept_slot, retainForm_slot, slot_setSlot_self _ lo hi]
    · rw [taken]
      exact fieldsFree_of_emptied (s := s.taken p) lo hi (by rw [taken_slot, slot]; rfl)
        (by rw [accept_poolUsed, retainForm_poolUsed]) bounded
  · have taken : (s.taken p).takeFormDelete p n = ((s.taken p).setSlot n .empty).accept p .formDelete [] := by
      rw [State.takeFormDelete, if_neg (by omega)]
      simp only [taken_slot, slot, owner, bne_self_eq_false, Bool.false_eq_true, if_false]
    refine ⟨_, exec_formDelete can hi, taken, ?_, fun bounded => ?_, fun only => ?_⟩
    · rw [taken, accept_slot, slot_setSlot_self _ lo hi]
    · rw [taken]
      exact fieldsFree_of_emptied (s := s.taken p) lo hi (by rw [taken_slot, slot]; rfl) rfl bounded
    · rw [taken]
      refine definingSlot_eq_none fun m g hm mine => ?_
      rw [accept_slot] at hm
      by_cases same : m = n
      · rw [same, slot_setSlot_self _ lo hi] at hm
        cases hm
      · rw [slot_setSlot_ne _ same] at hm
        exact same (only m g hm mine)

end Sys2Proof.Machine
end

section
/-! PROOFS. FORM-QUERY changes nothing; what its reply says, item by item, and how long it can be (O13). -/

namespace Sys2Proof.Machine

theorem exec_formQuery {s : State} {p : Port} {n : Nat} (can : s.canTake p Kind.formQuery.byte (byte1 n)) (hi : n ≤ 32) :
    exec (.formQuery p (byte1 n)) s = .next ((s.taken p).accept p .formQuery (s.formQueryData n)) := by
  have exec_eq : exec (.formQuery p (byte1 n)) s = .next ((s.taken p).takeFormQuery p n) :=
    record_of_parsed (act := fun n s => s.takeFormQuery p n) can (parseByte_byte1 (by omega))
  rw [exec_eq, State.takeFormQuery, if_neg (by omega)]
  rfl

/-! ### What the reply says -/

/-- Behind the three free counts the reply speaks of every slot, or of one (R19). -/
theorem formQueryData_drop (s : State) (n : Nat) : (s.formQueryData n).drop 6 =
    if n = 0 then (List.range 32).flatMap (fun k => s.slotReport (k + 1)) else s.formReport n := rfl

/-- The reply opens with the three free counts (R5, R19). -/
theorem formQueryData_counts (s : State) (n : Nat) : nat2At (s.formQueryData n) 0 = s.fieldsFree ∧
    nat2At (s.formQueryData n) 2 = s.textFree ∧ nat2At (s.formQueryData n) 4 = s.rowsFree := by
  have fields : s.fieldsFree < 65536 := by rw [fieldsFree_eq]; omega
  have text : s.textFree < 65536 := by rw [textFree_eq]; omega
  have rows : s.rowsFree < 65536 := by rw [rowsFree_eq]; omega
  exact ⟨nat2At_byte2 fields [], nat2At_byte2 text [], nat2At_byte2 rows []⟩

theorem slotReport_empty {s : State} {n : Nat} (slot : s.slot n = .empty) : s.slotReport n = [0#8] := by
  rw [State.slotReport, slot]
  rfl

theorem slotReport_defining {s : State} {n : Nat} {f : Form} (slot : s.slot n = .defining f) :
    s.slotReport n = 1#8 :: (byte1 f.owner.val ++ byte1 (s.useCount n)) := by
  rw [State.slotReport, slot]
  rfl

theorem slotReport_active {s : State} {n : Nat} {f : Form} (slot : s.slot n = .active f) :
    s.slotReport n = 2#8 :: (byte1 f.owner.val ++ byte1 (s.useCount n)) := by
  rw [State.slotReport, slot]
  rfl

theorem formReport_empty {s : State} {n : Nat} (slot : s.slot n = .empty) : s.formReport n = [0#8] := by
  rw [State.formReport, slot]
  rfl

/-- What is said of a form, whatever the state of its slot (R19). -/
theorem formReport_of_form {s : State} {n : Nat} {f : Form} (form : (s.slot n).form? = some f) :
    s.formReport n = byte1 (s.slot n).number ++ (byte1 f.owner.val ++ f.beginBytes n ++ byte1 (s.useCount n) ++ byte1 f.fields.length ++
      byte1 f.stencils.length ++ f.fields.flatMap Field.report ++ f.stencils.flatMap Stencil.report) := by
  rw [State.formReport, form]

/-- The values of FORM-BEGIN stand in the reply as FORM-BEGIN has them (R14, R19). -/
theorem beginBytes_eq (f : Form) (n : Nat) : f.beginBytes n =
    FormBegin.body { number := n, shared := f.shared, length := f.length, width := f.width, printPlanes := f.printPlanes,
                     mergeTimeout := f.mergeTimeout, policy := f.policy } := by
  cases h : f.policy <;> simp [Form.beginBytes, FormBegin.body, h, MergePolicy.number, MergePolicy.byte]

/-! ### How long the reply can be -/

/-- Entries of bounded length make a bounded list of bytes. -/
theorem length_flatMap_le {α : Type} {f : α → List Byte} {l : List α} {c : Nat} (h : ∀ x ∈ l, (f x).length ≤ c) :
    (l.flatMap f).length ≤ l.length * c := by
  rw [List.length_flatMap]
  have := List.sum_le_card_nsmul (l.map fun x => (f x).length) c (by simpa using h)
  simpa using this

theorem length_slotReport (s : State) (n : Nat) : (s.slotReport n).length ≤ 3 := by
  rw [State.slotReport]
  split <;> simp

theorem length_fieldReport (x : Field) : x.report.length = 6 + x.fallback.length := by
  simp [Field.report]
  omega

theorem length_beginBytes (f : Form) (n : Nat) : (f.beginBytes n).length = 9 := by simp [Form.beginBytes]

/-- What is said of one form within R2 and R6 (R19). -/
theorem length_formReport {s : State} {n : Nat} (bounds : ∀ f, (s.slot n).form? = some f →
    f.fields.length ≤ 96 ∧ f.stencils.length ≤ 8 ∧ ∀ x ∈ f.fields, x.fallback.length ≤ 16) :
    (s.formReport n).length ≤ 2142 := by
  cases form : (s.slot n).form? with
  | none =>
    rw [State.formReport, form]
    simp
  | some f =>
    obtain ⟨fields, stencils, fallbacks⟩ := bounds f form
    have fieldBytes : (f.fields.flatMap Field.report).length ≤ f.fields.length * 22 :=
      length_flatMap_le fun x hx => by
        rw [length_fieldReport]
        have := fallbacks x hx
        omega
    have stencilBytes : (f.stencils.flatMap Stencil.report).length ≤ f.stencils.length * 2 := length_flatMap_le fun _ _ => le_rfl
    rw [formReport_of_form form]
    simp only [List.length_append, length_byte1, length_beginBytes]
    omega

/-- No reply body exceeds 2,200 bytes (R169). -/
theorem length_formQueryData {s : State} {n : Nat} (bounds : ∀ f, (s.slot n).form? = some f →
    f.fields.length ≤ 96 ∧ f.stencils.length ≤ 8 ∧ ∀ x ∈ f.fields, x.fallback.length ≤ 16) :
    (s.formQueryData n).length + 1 ≤ 2200 := by
  have slots : ((List.range 32).flatMap fun k => s.slotReport (k + 1)).length ≤ 32 * 3 := by
    simpa using length_flatMap_le (l := List.range 32) fun k _ => length_slotReport s (k + 1)
  have form := length_formReport bounds
  simp only [State.formQueryData, List.length_append, length_byte2]
  split <;> omega

/-! ### The query -/

/-- Settles O13: the reply is read item by item, and bounded by its longest entries. -/
theorem formQueryChangesNothing : Obligations.FormQueryChangesNothing := by
  intro s p n can hi kind source
  have kind_eq (k : KindPart) : byte1 k.number = [kind k] := by cases k <;> rfl
  have source_eq (x : Source) : byte1 x.numbers.1 ++ byte1 x.numbers.2 = source x := by cases x <;> rfl
  have field_eq : Field.report = fun x => byte1 x.number ++ [kind x.part] ++ source x.source ++ flag1 x.required ++
      (byte1 x.fallback.length ++ x.fallback) := by
    funext x
    rw [Field.report, kind_eq, ← source_eq, packText]
    simp only [List.append_assoc]
  obtain ⟨fields, text, rows⟩ := formQueryData_counts s n
  refine ⟨s.formQueryData n, exec_formQuery can hi, fields, text, rows, fun zero => ?_, fun one empty => ?_, fun f one slot => ?_,
    length_formQueryData⟩
  · rw [formQueryData_drop, if_pos zero]
    congr 1
    funext k
    split
    next slot => exact slotReport_empty slot
    next slot => exact slotReport_defining slot
    next slot => exact slotReport_active slot
  · rw [formQueryData_drop, if_neg (by omega), formReport_empty empty]
  · have form : (s.slot n).form? = some f := by
      obtain slot | slot := slot <;> rw [slot] <;> rfl
    have number : byte1 (s.slot n).number = [if s.slot n = .active f then 2#8 else 1#8] := by
      obtain slot | slot := slot <;> simp [slot, Slot.number, byte1]
    rw [formQueryData_drop, if_neg (by omega), formReport_of_form form, number, beginBytes_eq, field_eq]
    rfl

end Sys2Proof.Machine
end

section
/-! PROOFS. The stores the retained image speaks of, the form slots, the counters and the retained area itself, and the operations of the
ports, the queue, the ring and the engine, none of which touches them. -/

namespace Sys2Proof.Machine

/-- The stores the retained image speaks of: the form slots, the counters and the retained area (R50). -/
def State.stores (s : State) : Vector Slot 32 × Vector (Option Counter) 8 × Retained := (s.slots, s.counters, s.retained)

theorem stores_eq_iff {s t : State} : t.stores = s.stores ↔ t.slots = s.slots ∧ t.counters = s.counters ∧ t.retained = s.retained := by
  simp [State.stores]

/-! ### Updates of the state -/

/-- A state written out has the stores of the one whose slots, counters and retained area it has. -/
@[simp] theorem mk_stores (s : State) (pending : List Instr) (held : Bool) (ports : Vector PortState 4) (lost : Bool) (queue : List Job)
    (next : Nat) (redo : List RedoEntry) (pool : List PoolEntry) (ring : Ring) (hand : Option Hand) (labels : List LabelRecord)
    (profile : Option HeadProfile) (settings : Option RunSettings) (engine : Engine) (tick : Nat) :
    (State.mk pending held ports s.slots s.counters s.retained lost queue next redo pool ring hand labels profile settings engine
      tick).stores = s.stores := rfl

@[simp] theorem onPort_stores (s : State) (p : Port) (f : PortState → PortState) : (s.onPort p f).stores = s.stores := rfl
@[simp] theorem onEngine_stores (s : State) (f : Engine → Engine) : (s.onEngine f).stores = s.stores := rfl
@[simp] theorem onJob_stores (s : State) (n : Nat) (f : Job → Job) : (s.onJob n f).stores = s.stores := rfl
@[simp] theorem onBuffer_stores (s : State) (i : Fin 8) (f : Buffer → Buffer) : (s.onBuffer i f).stores = s.stores := rfl
@[simp] theorem onHead_stores (s : State) (j c : Nat) (f : HeadLabel → HeadLabel) : (s.onHead j c f).stores = s.stores := rfl
@[simp] theorem freeBuffer_stores (s : State) (i : Fin 8) : (s.freeBuffer i).stores = s.stores := rfl
@[simp] theorem skipBand_stores (s : State) : s.skipBand.stores = s.stores := rfl
@[simp] theorem takeDryBand_stores (s : State) : s.takeDryBand.stores = s.stores := rfl
@[simp] theorem freeDryBand_stores (s : State) (i : Fin 8) : (s.freeDryBand i).stores = s.stores := rfl
@[simp] theorem leaveQueue_stores (s : State) (n : Nat) : (s.leaveQueue n).stores = s.stores := rfl

/-! ### Replies, events and reports -/

@[simp] theorem taken_stores (s : State) (p : Port) : (s.taken p).stores = s.stores := rfl
@[simp] theorem accept_stores (s : State) (p : Port) (k : Kind) (d : List Byte) : (s.accept p k d).stores = s.stores := rfl
@[simp] theorem answer_stores (s : State) (p : Port) (k : Kind) (c : ReplyCode) : (s.answer p k c).stores = s.stores := rfl
@[simp] theorem post_stores (s : State) (p : Port) (e : Event) : (s.post p e).stores = s.stores := rfl
@[simp] theorem postAll_stores (s : State) (e : Event) : (s.postAll e).stores = s.stores := rfl
@[simp] theorem handLine_stores (s : State) (j c y : Nat) : (s.handLine j c y).stores = s.stores := rfl

@[simp] theorem placeCompletion_stores (s : State) (c : Completion) : (s.placeCompletion c).stores = s.stores := by
  rw [placeCompletion_frame]
  rfl

@[simp] theorem refuseContribs_stores (s : State) (gone : List PoolEntry) : (s.refuseContribs gone).stores = s.stores := by
  rw [refuseContribs_frame]
  rfl

@[simp] theorem dropEntries_stores (s : State) (out : PoolEntry → Bool) : (s.dropEntries out).stores = s.stores := by
  rw [dropEntries_frame]
  rfl

@[simp] theorem bandReport_stores (s : State) (i : Fin 8) (r : BandRecord) : (s.bandReport i r).stores = s.stores := by
  unfold State.bandReport
  split <;> simp

/-- A fold whose every step leaves the stores leaves them. -/
theorem foldl_stores {α : Type} {f : State → α → State} (h : ∀ (s : State) x, (f s x).stores = s.stores) (l : List α) (s : State) :
    (l.foldl f s).stores = s.stores :=
  foldl_keeps (fun s t => t.stores = s.stores) (fun _ => rfl) (fun h k => k.trans h) h l s

/-! ### Label ends and the flush -/

@[simp] theorem settle_stores (s : State) : s.settle.stores = s.stores := by
  rw [settle_frame]
  rfl

@[simp] theorem endLabel_stores (s : State) (job copy : Nat) (o : LabelOutcome) (m : Bool) :
    (s.endLabel job copy o m).stores = s.stores := by
  rw [endLabel_frame]
  rfl

@[simp] theorem endAtHead_stores (s : State) (h : HeadLabel) (o : LabelOutcome) : (s.endAtHead h o).stores = s.stores := by
  simp [State.endAtHead]

@[simp] theorem endIfDue_stores (s : State) (h : HeadLabel) : (s.endIfDue h).stores = s.stores := by
  unfold State.endIfDue
  split <;> split <;> simp

@[simp] theorem flush_stores (s : State) (first : Option RedoEntry) : (s.flush first).stores = s.stores := by
  rw [flush_frame]
  rfl

@[simp] theorem endsAtStep_stores (s : State) : s.endsAtStep.stores = s.stores := by
  unfold State.endsAtStep
  dsimp only
  split <;> simp [foldl_stores]

/-! ### The engine's next work -/

@[simp] theorem startBlank_stores (s : State) : s.startBlank.stores = s.stores := by
  rw [startBlank_frame]
  rfl

@[simp] theorem lookForWork_stores (s : State) : s.lookForWork.stores = s.stores := by
  rw [lookForWork_frame]
  rfl

@[simp] theorem startLabelLine_stores (s : State) (h : HeadLabel) : (s.startLabelLine h).stores = s.stores := by
  rw [startLabelLine_frame]
  rfl

@[simp] theorem startMove_stores (s : State) : s.startMove.stores = s.stores := by
  rw [startMove_frame]
  rfl

@[simp] theorem goOn_stores (s : State) : s.goOn.stores = s.stores := by
  rw [goOn_frame]
  rfl

@[simp] theorem skipVoid_stores (s : State) : s.skipVoid.stores = s.stores := by
  rw [skipVoid_frame]
  rfl

@[simp] theorem retract_stores (s : State) : s.retract.stores = s.stores := by
  unfold State.retract
  split <;> simp

@[simp] theorem lookFromPresenting_stores (s : State) : s.lookFromPresenting.stores = s.stores := by
  unfold State.lookFromPresenting
  dsimp only
  split
  · rfl
  · split <;> simp

@[simp] theorem present_stores (s : State) : s.present.stores = s.stores := by simp [State.present]

@[simp] theorem backFeed_stores (s : State) : s.backFeed.stores = s.stores := by
  unfold State.backFeed
  dsimp only
  split
  · split <;> simp
  · rfl

/-! ### Faults and dry run -/

@[simp] theorem enterFault_stores (s : State) : s.enterFault.stores = s.stores := by
  rw [enterFault_frame]
  rfl

@[simp] theorem joinFaults_stores (s : State) (f : FaultSet) : (s.joinFaults f).stores = s.stores := by
  unfold State.joinFaults
  dsimp only
  split <;> simp

theorem dryTakeFuel_stores (n : Nat) (s : State) : (dryTakeFuel n s).stores = s.stores := by
  induction n generalizing s with
  | zero => rfl
  | succ n ih =>
    unfold dryTakeFuel
    split
    · rfl
    · split <;> simp [ih]

@[simp] theorem dryTake_stores (s : State) : s.dryTake.stores = s.stores := by
  unfold State.dryTake
  split
  · exact dryTakeFuel_stores 9 s
  · rfl

@[simp] theorem engineLook_stores (s : State) : s.engineLook.stores = s.stores := by
  unfold State.engineLook
  split
  case h_2 =>
    split
    · split <;> simp
    · rfl
  all_goals simp

@[simp] theorem leaveFaults_stores (s : State) (f : FaultSet) : (s.leaveFaults f).stores = s.stores := by
  unfold State.leaveFaults
  dsimp only
  split <;> simp

@[simp] theorem leaveDry_stores (s : State) : s.leaveDry.stores = s.stores := by
  unfold State.leaveDry
  extract_lets ending ended stopped settled
  have ends : ended.stores = s.stores := foldl_stores (fun s (l : LabelRecord) => endLabel_stores s l.job l.copy .dry false) _ s
  have settles : settled.stores = s.stores := (settle_stores _).trans ends
  split <;> simp [settles]

@[simp] theorem dryNext_stores (s : State) : s.dryNext.stores = s.stores := by
  unfold State.dryNext
  split <;> simp

@[simp] theorem consumeLine_stores (s : State) : s.consumeLine.stores = s.stores := by
  unfold State.consumeLine
  dsimp only
  split
  · split
    · rfl
    · split
      · simp
      · split
        · simp
        · split <;> simp
  · rfl

/-! ### A cancel, a FEED and the forward step -/

@[simp] theorem cancelInRing_stores (s : State) (n : Nat) : (s.cancelInRing n).stores = s.stores := by
  unfold State.cancelInRing
  dsimp only
  split
  · split <;> rfl
  · rfl

@[simp] theorem cancelAtEngine_stores (s : State) (n : Nat) : (s.cancelAtEngine n).stores = s.stores := by
  have dry : (s.dryCancel n).stores = s.stores := by
    unfold State.dryCancel
    split
    · simp
    · split <;> simp
  have look : (if s.takeFull?.any (·.void) then s.lookForWork else s).stores = s.stores := by split <;> simp
  unfold State.cancelAtEngine
  split
  · exact dry
  · split
    exacts [look, look, rfl]
  · split
    exacts [look, look, rfl]
  · exact engineLook_stores s

@[simp] theorem startFeed_stores (s : State) : s.startFeed.stores = s.stores := by simp [State.startFeed]

@[simp] theorem endLine_stores (s : State) (l : Line) : (s.endLine l).stores = s.stores := by
  unfold State.endLine
  split
  · extract_lets counted handed
    have hands : handed.stores = s.stores := by
      unfold handed counted
      split <;> simp
    split
    · split <;> simp [hands]
    · exact hands
  · rfl

@[simp] theorem afterLabel_stores (s : State) : s.afterLabel.stores = s.stores := by
  unfold State.afterLabel
  split
  · split <;> simp
  · simp

@[simp] theorem countSearch_stores (s : State) : s.countSearch.stores = s.stores := by
  unfold State.countSearch
  split <;> simp

@[simp] theorem afterStep_stores (s : State) (read : Bool) : (s.afterStep read).stores = s.stores := by
  unfold State.afterStep
  have search : (if read then s.countSearch.onEngine (·.feedSearch s.topOffset) else s.countSearch).stores = s.stores := by
    split <;> simp
  split
  case h_1 => rfl
  case h_2 => split <;> simp
  case h_3 => split <;> simp
  case h_4 => simp
  case h_5 => split <;> simp
  all_goals
    extract_lets searched
    have searches : searched.stores = s.stores := search
    split
    · split <;> simp [searches]
    · simp [searches]

@[simp] theorem forwardStep_stores (s : State) (gap : Bool) : (s.forwardStep gap).stores = s.stores := by
  have go (s : State) (l : Line) : (((s.motorSteps l gap).endLine l)).stores = s.stores := by simp [State.motorSteps]
  unfold State.forwardStep
  split
  case h_3 => rfl
  all_goals
    dsimp only
    split
    · simp [go]
    · split <;> simp [go]

end Sys2Proof.Machine
end

section
/-! PROOFS. The retained image tracked by the form slots and the counters: the relation of states, and the updates of the stores that have
it (R50 to R52). -/

namespace Sys2Proof.Machine

/-! ### The image exact -/

/-- The retained image holds the counters as they are, and by its scope no form or every ACTIVE one (R50, R52). -/
structure State.imageExact (s : State) : Prop where
  counters : s.retained.image.counters = s.counters
  noForm   : s.retained.image.scope = .counters → ∀ i : Fin 32, s.retained.image.forms[i] = none
  active   : s.retained.image.scope = .countersAndForms → ∀ i : Fin 32, s.retained.image.forms[i] = (s.slots[i]).active?

/-- A form of an exact image is its slot's ACTIVE form. -/
theorem active?_of_exact {s : State} (h : s.imageExact) {i : Fin 32} {f : Form} (hf : s.retained.image.forms[i] = some f) :
    (s.slots[i]).active? = some f := by
  cases scope : s.retained.image.scope with
  | counters => cases (h.noForm scope i).symm.trans hf
  | countersAndForms => exact (h.active scope i).symm.trans hf

theorem follows_of_exact {s : State} (h : s.imageExact) : s.imageFollows :=
  ⟨h.noForm, fun _ _ hf => form?_of_active? (active?_of_exact h hf), fun _ => ⟨h.counters, h.active⟩⟩

/-- While the part runs an image that follows is exact. -/
theorem exact_of_follows {s : State} (h : s.imageFollows) (runs : s.held = false) : s.imageExact :=
  ⟨(h.2.2 runs).1, h.1, (h.2.2 runs).2⟩

theorem exact_of_stores {s t : State} (h : t.stores = s.stores) (e : s.imageExact) : t.imageExact := by
  obtain ⟨slots, counters, retained⟩ := stores_eq_iff.mp h
  obtain ⟨a, b, c⟩ := e
  constructor <;> simpa only [slots, counters, retained]

/-! ### The relation -/

/-- From one state to the next the retained image stays exact and its check word in agreement, and a form becomes ACTIVE only out of the
slot it was in. -/
structure State.Tracks (s t : State) : Prop where
  exact : s.imageExact → t.imageExact
  sound : s.retained.sound = true → t.retained.sound = true
  forms : ∀ (i : Fin 32) f, (t.slots[i]).active? = some f → (s.slots[i]).form? = some f

namespace State.Tracks

theorem refl (s : State) : s.Tracks s := ⟨id, id, fun _ _ => form?_of_active?⟩

/-- What follows leaves the stores. -/
theorem after {s t u : State} (h : s.Tracks t) (k : u.stores = t.stores) : s.Tracks u := by
  obtain ⟨slots, -, retained⟩ := stores_eq_iff.mp k
  exact ⟨fun e => exact_of_stores k (h.exact e), by simpa only [retained] using h.sound, by simpa only [slots] using h.forms⟩

/-- What goes before leaves the stores. -/
theorem before {s t u : State} (h : t.Tracks u) (k : t.stores = s.stores) : s.Tracks u := by
  obtain ⟨slots, -, retained⟩ := stores_eq_iff.mp k
  exact ⟨fun e => h.exact (exact_of_stores k e), by simpa only [retained] using h.sound, by simpa only [slots] using h.forms⟩

theorem of_stores {s t : State} (h : t.stores = s.stores) : s.Tracks t := (refl s).after h

end State.Tracks

@[simp] theorem sealed_sound (i : Image) : i.sealed.sound = true := beq_self_eq_true _

/-! ### A form slot, and the image's form with it -/

/-- A number out of range names no slot (R1). -/
theorem slotIndex_none {n : Nat} (h : ¬ (1 ≤ n ∧ n ≤ 32)) : slotIndex n = none := dif_neg h

/-- One entry of a vector read after another is replaced. -/
theorem getElem_set_other {α : Type} {n : Nat} {v : Vector α n} {y : α} {i j : Fin n} (h : j ≠ i) : (v.set i y)[j] = v[j] :=
  Vector.getElem_set_ne _ _ fun k => h (Fin.ext k.symm)

/-- A slot replaced whose ACTIVE form, if any, stays: none comes or goes. -/
theorem tracks_setSlot {s : State} {n : Nat} {x : Slot} (h : x.active? = (s.slot n).active?) : s.Tracks (s.setSlot n x) := by
  by_cases range : 1 ≤ n ∧ n ≤ 32
  · obtain ⟨i, rfl⟩ := exists_slot range.1 range.2
    rw [slot_succ] at h
    rw [setSlot_succ]
    have same (j : Fin 32) : ((s.slots.set i x)[j]).active? = (s.slots[j]).active? := by
      by_cases e : j = i
      · subst e
        simpa using h
      · rw [getElem_set_other e]
    exact ⟨fun e => ⟨e.counters, e.noForm, fun scope j => (e.active scope j).trans (same j).symm⟩, id,
      fun j f hf => form?_of_active? ((same j).symm.trans hf)⟩
  · rw [State.setSlot, slotIndex_none range]
    exact .refl s

theorem retainForm_of_counters {s : State} (h : s.retained.image.scope = .counters) (n : Nat) (o : Option Form) :
    s.retainForm n o = s := by
  unfold State.retainForm
  split
  next k _ => cases h.symm.trans k
  next => rfl

theorem retainForm_of_none {s : State} {n : Nat} (h : slotIndex n = none) (o : Option Form) : s.retainForm n o = s := by
  unfold State.retainForm
  split
  next k => cases h.symm.trans k
  next => rfl

theorem retainForm_succ {s : State} (h : s.retained.image.scope = .countersAndForms) (i : Fin 32) (o : Option Form) :
    s.retainForm (i.val + 1) o =
      { s with retained := ({ s.retained.image with forms := s.retained.image.forms.set i o } : Image).sealed } := by
  simp only [State.retainForm, h, slotIndex_eq_some.mpr (rfl : i.val + 1 = i.val + 1)]

/-- A slot replaced and the image's form with it, as R51 has it: the form is the slot's ACTIVE one, which it held before in DEFINING. -/
theorem tracks_retainForm {s : State} {n : Nat} {x : Slot} (h : ∀ f, x.active? = some f → (s.slot n).form? = some f) :
    s.Tracks ((s.setSlot n x).retainForm n x.active?) := by
  by_cases range : 1 ≤ n ∧ n ≤ 32
  · obtain ⟨i, rfl⟩ := exists_slot range.1 range.2
    rw [slot_succ] at h
    rw [setSlot_succ]
    have forms (j : Fin 32) (f : Form) (hf : ((s.slots.set i x)[j]).active? = some f) : (s.slots[j]).form? = some f := by
      by_cases e : j = i
      · subst e
        exact h f (by simpa using hf)
      · rw [getElem_set_other e] at hf
        exact form?_of_active? hf
    cases scope : s.retained.image.scope with
    | counters =>
      rw [retainForm_of_counters (s := { s with slots := s.slots.set i x }) scope]
      exact ⟨fun e => ⟨e.counters, e.noForm, fun k => by cases scope.symm.trans k⟩, id, forms⟩
    | countersAndForms =>
      rw [retainForm_succ (s := { s with slots := s.slots.set i x }) scope]
      refine ⟨fun e => ⟨e.counters, fun k => ?_, fun _ j => ?_⟩, fun _ => sealed_sound _, forms⟩
      · cases scope.symm.trans k
      · by_cases same : j = i
        · subst same
          simp [Image.sealed]
        · exact (getElem_set_other same).trans ((e.active scope j).trans (congrArg Slot.active? (getElem_set_other same).symm))
  · rw [State.setSlot, slotIndex_none range, retainForm_of_none (slotIndex_none range)]
    exact .refl s

theorem tracks_retainScope (s : State) (scope : Scope) : s.Tracks (s.retainScope scope) := by
  refine ⟨fun e => ⟨e.counters, fun k i => ?_, fun k i => ?_⟩, fun _ => sealed_sound _, fun _ _ => form?_of_active?⟩ <;>
    obtain rfl : scope = _ := k
  · simp [State.retainScope, Image.sealed]
  · simp [State.retainScope, Image.sealed]

/-- The counters changed, and the image's counters rewritten after them (R51). -/
theorem tracks_retainCounters {s t : State} (slots : t.slots = s.slots) (retained : t.retained = s.retained) :
    s.Tracks t.retainCounters := by
  refine ⟨fun e => ⟨rfl, ?_, ?_⟩, fun _ => sealed_sound _, fun i f hf => form?_of_active? (slots ▸ hf)⟩
  · simpa only [State.retainCounters, Image.sealed, retained] using e.noForm
  · simpa only [State.retainCounters, Image.sealed, retained, slots] using e.active

end Sys2Proof.Machine
end

section
/-! PROOFS. What each command does to the stores: most leave them, and those that R51 and R52 name rewrite the retained image with them. -/

namespace Sys2Proof.Machine

/-! ### The records that leave the stores -/

theorem takeHeadProfile_stores (s : State) (p : Port) (h : HeadProfile) : (s.takeHeadProfile p h).stores = s.stores := by
  have load : (s.loadProfile h).stores = s.stores := by
    unfold State.loadProfile
    dsimp only
    split <;> simp
  unfold State.takeHeadProfile
  split
  · rfl
  · split
    · rfl
    · exact load

theorem takeRunSettings_stores (s : State) (p : Port) (r : Option RunSettings) : (s.takeRunSettings p r).stores = s.stores := by
  have load (r : RunSettings) : (s.loadSettings r).stores = s.stores := by
    unfold State.loadSettings
    dsimp only
    split
    · split <;> simp
    · rfl
  unfold State.takeRunSettings
  split
  · rfl
  · rfl
  · split
    · rfl
    · split
      · rfl
      · exact load _

theorem takePortSettings_stores (s : State) (p : Port) (t : Option PortSettings) : (s.takePortSettings p t).stores = s.stores := by
  unfold State.takePortSettings
  split <;> rfl

theorem takeFormQuery_stores (s : State) (p : Port) (n : Nat) : (s.takeFormQuery p n).stores = s.stores := by
  unfold State.takeFormQuery
  split <;> rfl

theorem takeCounterQuery_stores (s : State) (p : Port) (n : Nat) : (s.takeCounterQuery p n).stores = s.stores := by
  unfold State.takeCounterQuery
  split
  · rfl
  · split <;> rfl

theorem sweepPool_stores (s : State) (n : Nat) (f : Form) (key : Text) : (s.sweepPool n f key).stores = s.stores := by
  simp [sweepPool_eq, State.mergeFilled]

theorem takeJobOpen_stores (s : State) (p : Port) (r : Option JobOpen) : (s.takeJobOpen p r).stores = s.stores := by
  have opens (r : JobOpen) (f : Form) : (s.openJob p r f).stores = s.stores := by
    unfold State.openJob
    dsimp only
    split <;> simp [sweepPool_stores]
  unfold State.takeJobOpen
  split
  · rfl
  · rfl
  · split
    · rfl
    · exact opens ..
    · rfl

theorem takeFieldData_stores (s : State) (p : Port) (n : Nat) (v : Text) : (s.takeFieldData p n v).stores = s.stores := by
  unfold State.takeFieldData
  split
  · rfl
  · split
    · rfl
    · simp [apply_ite State.stores]

theorem takeJobClose_stores (s : State) (p : Port) : (s.takeJobClose p).stores = s.stores := by
  have close (j : Job) : (s.closeJob j).stores = s.stores := by
    unfold State.closeJob
    dsimp only
    split
    · rfl
    · split <;> simp [State.startTimer, sweepPool_stores]
  unfold State.takeJobClose
  split
  · rfl
  · split
    · rfl
    · exact close _

@[simp] theorem dropOpenJob_stores (s : State) (p : Port) : (s.dropOpenJob p).stores = s.stores := by
  unfold State.dropOpenJob
  split <;> rfl

theorem takeJobHold_stores (s : State) (p : Port) (n : Nat) : (s.takeJobHold p n).stores = s.stores := by
  unfold State.takeJobHold
  split
  · rfl
  · simp [apply_ite State.stores]

theorem takeJobRelease_stores (s : State) (p : Port) (n : Nat) : (s.takeJobRelease p n).stores = s.stores := by
  unfold State.takeJobRelease
  split
  · rfl
  · simp [apply_ite State.stores]

theorem takeJobCancel_stores (s : State) (p : Port) (n : Nat) : (s.takeJobCancel p n).stores = s.stores := by
  unfold State.takeJobCancel
  split
  · rfl
  · simp [State.cancelJob, apply_ite State.stores]

theorem takeJobQuery_stores (s : State) (p : Port) (n : Nat) : (s.takeJobQuery p n).stores = s.stores := by
  unfold State.takeJobQuery
  split
  · rfl
  · split
    · rfl
    · split <;> rfl

theorem takeContribute_stores (s : State) (p : Port) (r : Contribute) : (s.takeContribute p r).stores = s.stores := by
  have toJob (j : Job) : (s.contributeToJob p r j).stores = s.stores := by
    simp [State.contributeToJob, State.mergeFilled, apply_ite State.stores]
  have toPool : (s.contributeToPool p r).stores = s.stores := by
    unfold State.contributeToPool
    split <;> simp [State.pooled, apply_ite State.stores]
  unfold State.takeContribute
  split
  · rfl
  · split
    · exact toJob _
    · exact toPool

theorem takeFeed_stores (s : State) (p : Port) : (s.takeFeed p).stores = s.stores := by
  unfold State.takeFeed
  split <;> simp

theorem takeDryRunOn_stores (s : State) (p : Port) : (s.takeDryRunOn p).stores = s.stores := by
  unfold State.takeDryRunOn
  split <;> simp [State.enterDry]

theorem takeDryRunOff_stores (s : State) (p : Port) : (s.takeDryRunOff p).stores = s.stores := by
  unfold State.takeDryRunOff
  split <;> simp [State.askToLeaveDry, apply_ite State.stores]

theorem takePositionWatch_stores (s : State) (p : Port) (w : PositionWatch) : (s.takePositionWatch p w).stores = s.stores := by
  unfold State.takePositionWatch
  split
  · rfl
  · split
    · rfl
    · split
      · rfl
      · split <;> rfl

/-! ### The other commands that leave the stores -/

theorem receive_stores (s : State) (p : Port) (char : Byte) : (s.receive p char).stores = s.stores := by
  unfold State.receive
  dsimp only
  split <;> rfl

theorem judgeReading_stores (s : State) : s.judgeReading.stores = s.stores := by
  unfold State.judgeReading
  dsimp only
  split
  · simp
  · split
    · simp
    · split <;> simp

theorem takeBuffer_stores (s : State) : s.takeBuffer.stores = s.stores := by
  unfold State.takeBuffer
  split
  · rfl
  · split
    · split <;> rfl
    · rfl

@[simp] theorem finishFill_stores (s : State) : s.finishFill.stores = s.stores := by
  unfold State.finishFill
  split
  · split
    · split
      · rfl
      · simp only [apply_ite State.stores, mk_stores, onBuffer_stores, ite_self]
    · rfl
  · rfl

theorem timerExpires_stores (s : State) (n : Nat) : (s.timerExpires n).stores = s.stores := by
  have expire (j : Job) (policy : MergePolicy) : (s.expire j policy).stores = s.stores := by
    unfold State.expire
    cases policy <;> simp
  unfold State.timerExpires
  split
  · rfl
  · split
    · rfl
    · split
      · exact expire ..
      · rfl

theorem labelTaken_stores (s : State) : s.labelTaken.stores = s.stores := by
  unfold State.labelTaken
  split <;> simp

theorem poolSecond_stores (s : State) : s.poolSecond.stores = s.stores := by simp [State.poolSecond]

/-! ### The form records -/

theorem tracks_takeFormBegin (s : State) (p : Port) (r : Option FormBegin) : s.Tracks (s.takeFormBegin p r) := by
  unfold State.takeFormBegin
  split
  · exact .of_stores rfl
  next r =>
    split
    · exact .of_stores rfl
    · split
      · exact .of_stores rfl
      · split
        · exact .of_stores rfl
        · split
          · exact .of_stores rfl
          · refine (tracks_retainForm (x := .defining (r.form p)) fun f hf => ?_).after rfl
            cases hf
      next slot => exact (tracks_setSlot (by rw [slot]; rfl)).after rfl

theorem tracks_takeFieldDef (s : State) (p : Port) (r : Option Field) : s.Tracks (s.takeFieldDef p r) := by
  unfold State.takeFieldDef
  split
  · exact .of_stores rfl
  · exact .of_stores rfl
  next found =>
    obtain ⟨-, -, slot⟩ := definingForm_some found
    split
    · exact .of_stores rfl
    · split
      · exact .of_stores rfl
      · exact (tracks_setSlot (by rw [slot]; rfl)).after rfl

theorem tracks_takeStencilDef (s : State) (p : Port) (r : StencilDef) : s.Tracks (s.takeStencilDef p r) := by
  unfold State.takeStencilDef
  split
  · exact .of_stores rfl
  next found =>
    obtain ⟨-, -, slot⟩ := definingForm_some found
    split
    · exact .of_stores rfl
    · split
      · exact .of_stores rfl
      · split
        · exact .of_stores rfl
        · exact (tracks_setSlot (by rw [slot]; rfl)).after rfl

/-- FORM-END makes ACTIVE the form its slot had in DEFINING, and adds it to the image (R17, R51). -/
theorem tracks_takeFormEnd (s : State) (p : Port) : s.Tracks (s.takeFormEnd p) := by
  unfold State.takeFormEnd
  split
  · exact .of_stores rfl
  next f found =>
    obtain ⟨-, -, slot⟩ := definingForm_some found
    split
    · refine (tracks_retainForm (x := .active f) fun g hg => ?_).after rfl
      rw [slot]
      exact hg
    · exact .of_stores rfl

theorem tracks_takeFormDelete (s : State) (p : Port) (n : Nat) : s.Tracks (s.takeFormDelete p n) := by
  unfold State.takeFormDelete
  split
  · exact .of_stores rfl
  · split
    · exact .of_stores rfl
    next slot =>
      split
      · exact .of_stores rfl
      · exact (tracks_setSlot (by rw [slot]; rfl)).after rfl
    · split
      · exact .of_stores rfl
      · split
        · exact .of_stores rfl
        · refine (tracks_retainForm (x := .empty) fun f hf => ?_).after rfl
          cases hf

/-- A port reset gives up the form its port was defining, which the image did not hold (R20, R168). -/
theorem tracks_resetPort (s : State) (p : Port) : s.Tracks (s.resetPort p) := by
  have drop (t : State) : t.Tracks (t.dropDefining p) := by
    unfold State.dropDefining
    split
    · exact .refl t
    next found =>
      obtain ⟨-, -, f, slot, -⟩ := definingSlot_some found
      exact tracks_setSlot (by rw [slot]; rfl)
  exact ((drop _).before (dropOpenJob_stores s p)).after rfl

/-! ### The retention scope and the counters -/

theorem tracks_takeRetainScope (s : State) (p : Port) (scope : Option Scope) : s.Tracks (s.takeRetainScope p scope) := by
  unfold State.takeRetainScope
  split
  · exact .of_stores rfl
  · exact (tracks_retainScope s _).after rfl

theorem tracks_takeCounterSet (s : State) (p : Port) (r : CounterSet) : s.Tracks (s.takeCounterSet p r) := by
  unfold State.takeCounterSet
  split
  · exact .of_stores rfl
  next c k _ =>
    split
    · exact .of_stores rfl
    · exact State.Tracks.after (t := s.setCounter c k) (tracks_retainCounters rfl rfl) rfl

theorem tracks_takeCounterFree (s : State) (p : Port) (n : Nat) : s.Tracks (s.takeCounterFree p n) := by
  unfold State.takeCounterFree
  split
  · exact .of_stores rfl
  next c _ =>
    split
    · exact .of_stores rfl
    · split
      · exact .of_stores rfl
      · exact State.Tracks.after (t := State.retainCounters { s with counters := s.counters.set c none })
          (tracks_retainCounters rfl rfl) rfl

end Sys2Proof.Machine
end

section
/-! PROOFS. Draws from the counters: what one draw does, what the draws of a label start do together, and when they can be made (R44 to
R47). -/

namespace Sys2Proof.Machine

/-! ### One draw -/

/-- What is pending at a port once an event is posted to it (R176). -/
theorem isIn_post (q : PortState) (e e' : Event) : e'.isIn (q.post e).pending = (e'.isIn q.pending || decide (e' = e)) := isIn_addTo ..

/-- Drawing a counter exhausts it, to its owner's port (R44, R47). -/
def State.exhausts (s : State) (c : CounterNo) (q : Port) : Prop :=
  ∃ k, s.counters[c] = some k ∧ k.exhausted = false ∧ k.afterDraw.exhausted = true ∧ k.owner = q

/-- A draw touches the counters and the ports. -/
theorem drawOne_frame (s : State) (c : CounterNo) :
    s.drawOne c = { s with counters := (s.drawOne c).counters, ports := (s.drawOne c).ports } := by
  unfold State.drawOne
  split
  · rfl
  · dsimp only
    split <;> rfl

theorem drawOne_counters (s : State) (c d : CounterNo) :
    (s.drawOne c).counters[d] = if d = c then (s.counters[d]).map Counter.afterDraw else s.counters[d] := by
  cases entry : s.counters[c] with
  | none =>
    simp only [State.drawOne, entry]
    split
    next same => simp [same, entry]
    next => rfl
  | some k =>
    have drawn : (s.drawOne c).counters = s.counters.set c (some k.afterDraw) := by
      simp only [State.drawOne, entry]
      split <;> rfl
    rw [drawn]
    split
    next same =>
      subst same
      simp [entry]
    next other => exact getElem_set_other other

/-- A draw that exhausts its counter posts COUNTER-EXHAUSTED to the owner, and no draw does anything else to a port (R47). -/
theorem drawOne_port (s : State) (c : CounterNo) (q : Port) :
    (s.exhausts c q ∧ (s.drawOne c).port q = (s.port q).post .counterExhausted) ∨
    (¬ s.exhausts c q ∧ (s.drawOne c).port q = s.port q) := by
  cases entry : s.counters[c] with
  | none =>
    refine .inr ⟨fun ⟨k, hk, _⟩ => by simp [entry] at hk, ?_⟩
    simp only [State.drawOne, entry]
  | some k =>
    have exhausts : s.exhausts c q ↔ k.exhausted = false ∧ k.afterDraw.exhausted = true ∧ k.owner = q := by
      simp [State.exhausts, entry]
    simp only [State.drawOne, entry, exhausts]
    split
    next posts =>
      obtain ⟨after, before⟩ : k.afterDraw.exhausted = true ∧ k.exhausted = false := by simpa using posts
      by_cases owner : k.owner = q
      · subst owner
        exact .inl ⟨⟨before, after, rfl⟩, port_onPort_self ..⟩
      · exact .inr ⟨fun h => owner h.2.2, port_onPort_ne _ _ owner⟩
    next silent =>
      refine .inr ⟨fun ⟨before, after, _⟩ => silent ?_, rfl⟩
      simp [before, after]

/-! ### The draws of a label start -/

/-- Several counters drawn, in order. -/
def State.draws (s : State) (l : List CounterNo) : State := l.foldl (fun s c => s.drawOne c) s

/-- Draws touch the counters and the ports. -/
theorem draws_frame (s : State) (l : List CounterNo) :
    s.draws l = { s with counters := (s.draws l).counters, ports := (s.draws l).ports } :=
  foldl_keeps (fun s t => t = { s with counters := t.counters, ports := t.ports }) (fun _ => rfl) (fun h k => by rw [k, h]) drawOne_frame l s

/-- Each counter of a list without repetition is drawn once, and no other. -/
theorem draws_counters {l : List CounterNo} (once : l.Nodup) (s : State) (d : CounterNo) :
    (s.draws l).counters[d] = if d ∈ l then (s.counters[d]).map Counter.afterDraw else s.counters[d] := by
  induction l generalizing s with
  | nil => simp [State.draws]
  | cons c l ih =>
    obtain ⟨new, once⟩ := List.nodup_cons.mp once
    show ((s.drawOne c).draws l).counters[d] = _
    rw [ih once, drawOne_counters]
    by_cases same : d = c
    · subst same
      simp [new]
    · simp [same]

/-- A draw of another counter leaves whether this one's exhausts it. -/
theorem exhausts_drawOne {s : State} {c d : CounterNo} (other : d ≠ c) (q : Port) : (s.drawOne c).exhausts d q ↔ s.exhausts d q := by
  simp only [State.exhausts, drawOne_counters, if_neg other]

/-- After draws of distinct counters the pending events are those before, and COUNTER-EXHAUSTED at the owner of each counter its draw
exhausts (R47). -/
theorem draws_pending {l : List CounterNo} (once : l.Nodup) (s : State) (q : Port) (e : Event) :
    e.isIn ((s.draws l).port q).pending = true ↔
      e.isIn (s.port q).pending = true ∨ (e = .counterExhausted ∧ ∃ c ∈ l, s.exhausts c q) := by
  induction l generalizing s with
  | nil => simp [State.draws]
  | cons c l ih =>
    obtain ⟨new, once⟩ := List.nodup_cons.mp once
    have rest : (∃ d ∈ l, (s.drawOne c).exhausts d q) ↔ ∃ d ∈ l, s.exhausts d q :=
      exists_congr fun d => and_congr_right fun mem => exhausts_drawOne (ne_of_mem_of_not_mem mem new) q
    show e.isIn (((s.drawOne c).draws l).port q).pending = true ↔ _
    rw [ih once, rest, List.exists_mem_cons_iff]
    obtain ⟨yes, port⟩ | ⟨no, port⟩ := drawOne_port s c q
    · simp only [port, isIn_post, Bool.or_eq_true, decide_eq_true_eq, yes]
      tauto
    · simp only [port, no, false_or]

/-- A port that owns no counter its draw exhausts is left as it was. -/
theorem draws_port {l : List CounterNo} (once : l.Nodup) (s : State) (q : Port) (silent : ∀ c ∈ l, ¬ s.exhausts c q) :
    (s.draws l).port q = s.port q := by
  induction l generalizing s with
  | nil => rfl
  | cons c l ih =>
    obtain ⟨new, once⟩ := List.nodup_cons.mp once
    show ((s.drawOne c).draws l).port q = _
    rw [ih once (s.drawOne c) fun d mem => ?_]
    · obtain ⟨yes, -⟩ | ⟨-, port⟩ := drawOne_port s c q
      · exact absurd yes (silent c (List.mem_cons_self ..))
      · exact port
    · rw [exhausts_drawOne (ne_of_mem_of_not_mem mem new)]
      exact silent d (List.mem_cons_of_mem _ mem)

theorem drawAll_of_some {s : State} {f : Form} (h : f.counters ≠ []) : s.drawAll f = (s.draws f.counters).retainCounters := by
  unfold State.drawAll
  rw [if_neg (by simpa using h)]
  rfl

theorem drawAll_of_none {s : State} {f : Form} (h : f.counters = []) : s.drawAll f = s := by
  unfold State.drawAll
  rw [if_pos (by simpa using h)]

/-! ### Whether a label's counters can give -/

theorem canGive_iff (o : Option Counter) : canGive o = true ↔ ∃ k, o = some k ∧ k.exhausted = false := by
  cases o <;> simp [canGive]

theorem canGive_eq_false_iff (o : Option Counter) : canGive o = false ↔ ∀ k, o = some k → k.exhausted = true := by
  cases o <;> simp [canGive]

/-- No counter a form needs is lacking when each can give (R44). -/
theorem lackingCounter_none {s : State} {f : Form} (h : ∀ c ∈ f.counters, ∃ k, s.counters[c] = some k ∧ k.exhausted = false) :
    s.lackingCounter f = none :=
  List.find?_eq_none.mpr fun c mem => by simpa using (canGive_iff _).mpr (h c mem)

/-- A form's counters stand in rising order (R45). -/
theorem counters_sorted (f : Form) : f.counters.Pairwise (· < ·) := (List.pairwise_lt_finRange 8).filter _

theorem counters_nodup (f : Form) : f.counters.Nodup := (List.nodup_finRange 8).filter _

/-- Of a rising list the first member with a property is the least (R46). -/
theorem find?_of_least {n : Nat} {l : List (Fin n)} (rising : l.Pairwise (· < ·)) {p : Fin n → Bool} {c : Fin n} (mem : c ∈ l)
    (has : p c = true) (least : ∀ d ∈ l, d < c → p d = false) : l.find? p = some c := by
  induction l with
  | nil => cases mem
  | cons x l ih =>
    obtain ⟨first, rising⟩ := List.pairwise_cons.mp rising
    rcases List.mem_cons.mp mem with rfl | mem
    · exact List.find?_cons_of_pos has
    · rw [List.find?_cons_of_neg (by simp [least x (List.mem_cons_self ..) (first c mem)])]
      exact ih rising mem fun d hd => least d (List.mem_cons_of_mem _ hd)

theorem lackingCounter_some {s : State} {f : Form} {c : CounterNo} (mem : c ∈ f.counters)
    (lacks : ∀ k, s.counters[c] = some k → k.exhausted = true)
    (least : ∀ d ∈ f.counters, d < c → ∃ k, s.counters[d] = some k ∧ k.exhausted = false) : s.lackingCounter f = some c := by
  refine find?_of_least (counters_sorted f) mem ?_ fun d hd lt => ?_
  · simpa using (canGive_eq_false_iff _).mpr lacks
  · simpa using (canGive_iff _).mpr (least d hd lt)

/-! ### The image and the draws -/

@[simp] theorem drawFails_stores (s : State) (j : Job) (c : CounterNo) : (s.drawFails j c).stores = s.stores := by
  unfold State.drawFails
  dsimp only
  split
  · split <;> rfl
  · rfl

theorem tracks_drawAll (s : State) (f : Form) : s.Tracks (s.drawAll f) := by
  by_cases none : f.counters = []
  · rw [drawAll_of_none none]
    exact .refl s
  · rw [drawAll_of_some none]
    exact tracks_retainCounters (by rw [draws_frame]) (by rw [draws_frame])

theorem tracks_startCopy (s : State) (j : Job) : s.Tracks (s.startCopy j) := by
  unfold State.startCopy
  split
  · exact .refl s
  next f _ =>
    split
    · exact .of_stores (drawFails_stores ..)
    · extract_lets values drawn
      have draw : s.Tracks drawn := by
        unfold drawn
        split
        · exact .refl s
        · exact tracks_drawAll s f
      exact draw.after rfl

theorem tracks_answerAsk (s : State) : s.Tracks s.answerAsk := by
  unfold State.answerAsk
  split
  · exact .of_stores rfl
  · split
    · exact tracks_startCopy ..
    · exact .refl s

end Sys2Proof.Machine
end

section
/-! PROOFS. Every command but a power-up and the reset input keeps the retained image exact, a rewrite cut by the reset input leaves no form
but those of the slots, and a power-up makes counters and slots of the image; so the image follows at every step (O57). -/

namespace Sys2Proof.Machine

/-! ### Outcomes -/

/-- A command's outcome: nothing happens, or the part runs and the image is tracked. -/
def State.TracksInto (s : State) (o : Host.Outcome State Fault Refusal) : Prop :=
  ∀ t, o = .next t → t = s ∨ s.held = false ∧ s.Tracks t

theorem tracksInto_running {s : State} {f : State → State} (h : s.Tracks (f s)) : s.TracksInto (s.running f) := by
  intro t e
  cases held : s.held with
  | true =>
    rw [running_of_held held] at e
    cases e
    exact .inl rfl
  | false =>
    rw [running_of_not_held held] at e
    cases e
    exact .inr ⟨rfl, h⟩

theorem tracksInto_takeRecord {s : State} {p : Port} {kind : Byte} {body : List Byte} {act : State → State}
    (h : ∀ t : State, t.Tracks (act t)) : s.TracksInto (s.takeRecord p kind body act) := by
  refine tracksInto_running ?_
  split
  · exact (h _).before (taken_stores s p)
  · exact .refl s

theorem tracksInto_record {α : Type} {s : State} {p : Port} {k : Kind} {body : List Byte} {parse : List Byte → Option α}
    {act : α → State → State} (h : ∀ (r : α) (t : State), t.Tracks (act r t)) : s.TracksInto (s.record p k body parse act) := by
  refine tracksInto_takeRecord fun t => ?_
  split
  · exact .of_stores rfl
  · exact h _ t

/-- A record that leaves the stores. -/
theorem tracksInto_record_of_stores {α : Type} {s : State} {p : Port} {k : Kind} {body : List Byte} {parse : List Byte → Option α}
    {act : α → State → State} (h : ∀ (r : α) (t : State), (act r t).stores = t.stores) :
    s.TracksInto (s.record p k body parse act) :=
  tracksInto_record fun r t => .of_stores (h r t)

theorem tracksInto_running_of_stores {s : State} {f : State → State} (h : (f s).stores = s.stores) : s.TracksInto (s.running f) :=
  tracksInto_running (.of_stores h)

theorem tracksInto_composerAsk (s : State) : s.TracksInto (execComposerAsk s) := by
  refine tracksInto_running ?_
  split
  · exact tracks_answerAsk s
  · exact .refl s

/-! ### Every command -/

/-- Every command but a power-up and the reset input tracks the image. -/
theorem exec_tracks {c : Instr} (powerUp : ∀ low lid, c ≠ .powerUp low lid) (reset : ∀ cut, c ≠ .deviceResetAssert cut) (s : State) :
    s.TracksInto (exec c s) := by
  cases c with
  | headProfile p => exact tracksInto_record_of_stores fun r t => takeHeadProfile_stores t p r
  | runSettings p => exact tracksInto_record_of_stores fun r t => takeRunSettings_stores t p r
  | retainScope p => exact tracksInto_record fun r t => tracks_takeRetainScope t p r
  | portSettings p => exact tracksInto_record_of_stores fun r t => takePortSettings_stores t p r
  | formBegin p => exact tracksInto_record fun r t => tracks_takeFormBegin t p r
  | fieldDef p => exact tracksInto_record fun r t => tracks_takeFieldDef t p r
  | stencilDef p => exact tracksInto_record fun r t => tracks_takeStencilDef t p r
  | formEnd p => exact tracksInto_record fun _ t => tracks_takeFormEnd t p
  | formDelete p => exact tracksInto_record fun r t => tracks_takeFormDelete t p r
  | formQuery p => exact tracksInto_record_of_stores fun r t => takeFormQuery_stores t p r
  | counterSet p => exact tracksInto_record fun r t => tracks_takeCounterSet t p r
  | counterFree p => exact tracksInto_record fun r t => tracks_takeCounterFree t p r
  | counterQuery p => exact tracksInto_record_of_stores fun r t => takeCounterQuery_stores t p r
  | jobOpen p => exact tracksInto_record_of_stores fun r t => takeJobOpen_stores t p r
  | fieldData p => exact tracksInto_record_of_stores fun (r : Nat × Text) t => takeFieldData_stores t p r.1 r.2
  | jobClose p => exact tracksInto_record_of_stores fun _ t => takeJobClose_stores t p
  | discard p =>
    unfold exec execDiscard
    refine tracksInto_record_of_stores fun _ t => ?_
    exact dropOpenJob_stores t p
  | jobHold p => exact tracksInto_record_of_stores fun r t => takeJobHold_stores t p r
  | jobRelease p => exact tracksInto_record_of_stores fun r t => takeJobRelease_stores t p r
  | jobCancel p => exact tracksInto_record_of_stores fun r t => takeJobCancel_stores t p r
  | jobQuery p => exact tracksInto_record_of_stores fun r t => takeJobQuery_stores t p r
  | contribute p => exact tracksInto_record_of_stores fun r t => takeContribute_stores t p r
  | feed p => exact tracksInto_record_of_stores fun _ t => takeFeed_stores t p
  | dryRunOn p => exact tracksInto_record_of_stores fun _ t => takeDryRunOn_stores t p
  | dryRunOff p => exact tracksInto_record_of_stores fun _ t => takeDryRunOff_stores t p
  | positionWatch p => exact tracksInto_record_of_stores fun w t => takePositionWatch_stores t p w
  | engineQuery | vectorQuery | reportRead =>
    simp only [exec, execEngineQuery, execVectorQuery, execReportRead]
    refine tracksInto_record_of_stores fun _ _ => ?_
    rfl
  | portReset p =>
    unfold exec execPortReset
    refine tracksInto_record fun _ t => ?_
    exact (tracks_resetPort t p).after rfl
  | unknownKind p kind body =>
    show s.TracksInto (if (kindOf kind).isSome then .next s else _)
    split
    · exact fun t e => .inl (by cases e; rfl)
    · exact tracksInto_takeRecord fun t => .of_stores rfl
  | receiveByte p char error =>
    refine tracksInto_running_of_stores (f := fun s => if error then s else s.receive p char) ?_
    split
    · rfl
    · exact receive_stores ..
  | frameTimeout | strobePhaseEnd | phaseGapEnd | dotClassTimeEnd | mergeTimerSecond =>
    simp only [exec, execFrameTimeout, execStrobePhaseEnd, execPhaseGapEnd, execDotClassTimeEnd, execMergeTimerSecond]
    refine tracksInto_running_of_stores ?_
    rfl
  | lineBreak p => exact tracksInto_running (f := (·.resetPort p)) (tracks_resetPort s p)
  | deviceResetAssert cut => exact absurd rfl (reset cut)
  | powerUp low lid => exact absurd rfl (powerUp low lid)
  | sensorReading t v => exact tracksInto_running_of_stores (f := fun s => (s.storeReading t v).judgeReading) (judgeReading_stores _)
  | lidSwitchOpen =>
    exact tracksInto_running_of_stores (f := fun s => s.joinFaults (s.engine.faults.put .headOpen true)) (joinFaults_stores ..)
  | lidSwitchClosed =>
    exact tracksInto_running_of_stores (f := fun s => s.leaveFaults s.engine.faults.lidClosed) (leaveFaults_stores ..)
  | composerAsk => exact tracksInto_composerAsk s
  | bandTake => exact tracksInto_running_of_stores (takeBuffer_stores s)
  | bandFillComplete =>
    refine tracksInto_running_of_stores ?_
    split
    · simp
    · rfl
  | mergeTimerExpiry n => exact tracksInto_running_of_stores (f := (·.timerExpires n)) (timerExpires_stores s n)
  | poolEntryDiscard key p field =>
    exact tracksInto_running_of_stores (f := (·.discardEntry key p field)) (dropEntries_stores ..)
  | forwardStep gap => exact tracksInto_running_of_stores (f := (·.forwardStep gap)) (forwardStep_stores s gap)
  | takenSensorSample =>
    refine tracksInto_running_of_stores ?_
    split <;> rfl
  | labelTaken =>
    refine tracksInto_running_of_stores ?_
    split
    · exact labelTaken_stores s
    · rfl
  | backFeedStep => exact tracksInto_running_of_stores (backFeed_stores s)
  | dryLineConsumed => exact tracksInto_running_of_stores (consumeLine_stores s)

/-! ### The reset input -/

/-- The image an outcome leaves that tracks it: exact, of a state whose ACTIVE forms were in the slots before. -/
theorem imageAfter_tracks {s : State} {o : Host.Outcome State Fault Refusal} (h : s.TracksInto o) :
    ∃ t, s.Tracks t ∧ s.imageAfter o = t.retained.image := by
  cases o with
  | next t =>
    obtain rfl | ⟨-, tracks⟩ := h t rfl
    · exact ⟨t, .refl t, rfl⟩
    · exact ⟨t, tracks, rfl⟩
  | fault r => exact ⟨s, .refl s, rfl⟩
  | refused r => exact ⟨s, .refl s, rfl⟩

/-- The image the rewrite under way would end with is that of a state that tracks it (R51). -/
theorem rewrittenImage_tracks (s : State) : ∃ t, s.Tracks t ∧ s.rewrittenImage = t.retained.image := by
  unfold State.rewrittenImage
  split
  · exact imageAfter_tracks (tracksInto_composerAsk s)
  · exact imageAfter_tracks (tracksInto_record fun r t => tracks_takeCounterSet t _ r)
  · exact imageAfter_tracks (tracksInto_record fun r t => tracks_takeCounterFree t _ r)
  · exact imageAfter_tracks (tracksInto_record fun r t => tracks_takeRetainScope t _ r)
  · exact imageAfter_tracks (tracksInto_record fun _ t => tracks_takeFormEnd t _)
  · exact imageAfter_tracks (tracksInto_record fun r t => tracks_takeFormDelete t _ r)
  · exact imageAfter_tracks (tracksInto_record fun r t => tracks_takeFormBegin t _ r)
  · exact ⟨s, .refl s, rfl⟩

/-- Under COUNTERS a cut image has no form (R50, R51). -/
theorem cutAt_forms_of_counters {i goal : Image} {written : ImagePart → Bool} (h : (i.cutAt goal written).scope = .counters)
    (n : Fin 32) : (i.cutAt goal written).forms[n] = none := by
  simp only [Image.cutAt] at h ⊢
  simp [h]

/-- A rewrite cut while the part runs leaves in the image no form but those of the slots; under COUNTERS none (R50, R51; log 3). -/
theorem cutRewrite_forms {s : State} (h : s.imageExact) :
    (s.cutRewrite.retained.image.scope = .counters → ∀ i : Fin 32, s.cutRewrite.retained.image.forms[i] = none) ∧
    ∀ (i : Fin 32) f, s.cutRewrite.retained.image.forms[i] = some f → (s.slots[i]).form? = some f := by
  obtain ⟨t, tracks, goal⟩ := rewrittenImage_tracks s
  have old (i : Fin 32) (f : Form) (hf : s.retained.image.forms[i] = some f) : (s.slots[i]).form? = some f :=
    form?_of_active? (active?_of_exact h hf)
  have new (i : Fin 32) (f : Form) (hf : s.rewrittenImage.forms[i] = some f) : (s.slots[i]).form? = some f :=
    tracks.forms i f (active?_of_exact (tracks.exact h) (goal ▸ hf))
  unfold State.cutRewrite
  split
  · exact ⟨h.noForm, old⟩
  · refine ⟨cutAt_forms_of_counters, fun i f hf => ?_⟩
    obtain ⟨-, -, forms⟩ := cutAt_parts s.retained.image s.rewrittenImage (Config.partWritten s.freeTick)
    obtain before | after | ⟨-, gone⟩ := forms i
    · exact old i f (before ▸ hf)
    · exact new i f (after ▸ hf)
    · cases gone.symm.trans hf

/-- The part held by the reset input keeps the image's forms, and its check word but where a rewrite is cut (R50, R51, R186). -/
theorem deviceResetAssert_follows {cut : Bool} {s t : State} (h : exec (.deviceResetAssert cut) s = .next t) :
    (s.imageFollows → t.imageFollows) ∧ (s.retained.sound = true → cut = false → t.retained.sound = true) := by
  cases held : s.held with
  | true =>
    obtain rfl : s = t := by simpa [exec, execDeviceResetAssert, running_of_held held] using h
    exact ⟨id, fun sound _ => sound⟩
  | false =>
    have next : (if cut then s.cutRewrite.hold else s.hold) = t := by
      simpa [exec, execDeviceResetAssert, running_of_not_held held] using h
    subst next
    cases cut with
    | false => exact ⟨fun follows => ⟨follows.1, follows.2.1, fun k => by cases k⟩, fun sound _ => sound⟩
    | true =>
      refine ⟨fun follows => ?_, fun _ k => by cases k⟩
      obtain ⟨none, slots⟩ := cutRewrite_forms (exact_of_follows follows held)
      refine ⟨none, fun i f hf => ?_, fun k => by cases k⟩
      show (s.cutRewrite.slots[i]).form? = some f
      rw [(cutRewrite_frame s).1]
      exact slots i f hf

/-! ### A power-up -/

/-- The counters and the slots after a power-up are those of the retained image, which is so exact where it has no form under COUNTERS
(R53, R186). -/
theorem powerOn_exact {s : State} {r : Retained} (noForm : r.image.scope = .counters → ∀ i : Fin 32, r.image.forms[i] = none)
    (lost lid : Bool) : (s.powerOn r lost lid).imageExact := by
  refine ⟨rfl, noForm, fun scope i => ?_⟩
  have slot : (s.powerOn r lost lid).slots = mapVec (fun f => f.elim Slot.empty Slot.active) r.image.forms := by
    simp only [State.powerOn, show r.image.scope = .countersAndForms from scope]
  show r.image.forms[i] = _
  rw [slot, Fin.getElem_fin, Fin.getElem_fin, mapVec_getElem]
  cases r.image.forms[i.val] <;> rfl

theorem powerUp_follows (s : State) (low lid : Bool) : s.imageFollows → (s.powerUp low lid).imageFollows := by
  intro follows
  unfold State.powerUp
  split
  · exact follows_of_exact (powerOn_exact (fun _ i => by simp [Image.sealed, Image.fresh]) ..)
  · exact follows_of_exact (powerOn_exact follows.1 ..)

/-- A power-up discards a retained area whose check word does not agree (R53). -/
theorem powerUp_sound (s : State) (low lid : Bool) : (s.powerUp low lid).retained.sound = true := by
  unfold State.powerUp
  split
  · exact sealed_sound _
  next kept =>
    simp only [Bool.or_eq_true, not_or, Bool.not_eq_true, Bool.not_eq_false'] at kept
    exact kept.2

/-! ### The step -/

/-- What tracks the image while the part runs, and leaves it else, keeps it following and its check word in agreement. -/
theorem follows_of_tracksInto {s t : State} {o : Host.Outcome State Fault Refusal} (h : s.TracksInto o) (next : o = .next t) :
    (s.imageFollows → t.imageFollows) ∧ (s.retained.sound = true → t.retained.sound = true) := by
  obtain rfl | ⟨runs, tracks⟩ := h t next
  · exact ⟨id, id⟩
  · exact ⟨fun follows => follows_of_exact (tracks.exact (exact_of_follows follows runs)), tracks.sound⟩

/-- A second of idling leaves the stores. -/
theorem tracksInto_idle (s : State) : s.TracksInto (.next s.idle) := by
  intro t e
  cases e
  cases held : s.held with
  | true => exact .inl (if_pos held)
  | false =>
    refine .inr ⟨rfl, .of_stores ?_⟩
    rw [State.idle, if_neg (by simp [held])]
    exact poolSecond_stores s

/-- Settles O57: while the part runs the image is exact after every command, and so it follows; the reset input and a power-up are
taken apart. -/
theorem retainedImageFollows : Obligations.RetainedImageFollows := by
  intro s t h
  unfold step at h
  split at h
  next =>
    obtain ⟨follows, sound⟩ := follows_of_tracksInto (tracksInto_idle s) h
    exact ⟨follows, fun k _ => sound k⟩
  next c rest pending =>
    by_cases up : ∃ low lid, c = .powerUp low lid
    · obtain ⟨low, lid, rfl⟩ := up
      cases h
      exact ⟨powerUp_follows { s with pending := rest } low lid, fun _ _ => powerUp_sound ..⟩
    · by_cases reset : ∃ cut, c = .deviceResetAssert cut
      · obtain ⟨cut, rfl⟩ := reset
        obtain ⟨follows, sound⟩ := deviceResetAssert_follows h
        refine ⟨follows, fun k whole => sound k ?_⟩
        cases cut with
        | false => rfl
        | true => exact absurd pending (whole rest)
      · have tracks := exec_tracks (fun low lid e => up ⟨low, lid, e⟩) (fun cut e => reset ⟨cut, e⟩) { s with pending := rest }
        obtain ⟨follows, sound⟩ := follows_of_tracksInto tracks h
        exact ⟨follows, fun k _ => sound k⟩

end Sys2Proof.Machine
end

section
/-! PROOFS. RETAIN-SCOPE, COUNTER-SET and COUNTER-FREE, their bodies read back and each of their cases taken (O7, O14, O15). -/

namespace Sys2Proof.Machine

/-! ### RETAIN-SCOPE -/

/-- The scope a flag stands for (R52). -/
def scopeOf (forms : Bool) : Scope := if forms then .countersAndForms else .counters

theorem parseScope_flag (forms : Bool) : parseScope (flag1 forms) = some (some (scopeOf forms)) := by cases forms <;> rfl

theorem parseScope_neither {b : Byte} (h : 1 < b.toNat) : parseScope [b] = some none := by
  simp [parseScope, choice2, show b.toNat ≠ 0 by omega, show b.toNat ≠ 1 by omega]

/-- The image a RETAIN-SCOPE writes: the counters as they were retained, and by the scope every ACTIVE form or none (R52). -/
def State.imageUnder (s : State) (scope : Scope) : Image :=
  { s.retained.image with
    scope := scope
    forms := match scope with
      | .counters => Vector.replicate 32 none
      | .countersAndForms => mapVec Slot.active? s.slots }

theorem takeRetainScope_some (s : State) (p : Port) (scope : Scope) :
    s.takeRetainScope p (some scope) =
      State.accept { s with retained := (s.imageUnder scope).sealed } p .retainScope [] := rfl

theorem imageUnder_forms (s : State) (forms : Bool) (i : Fin 32) :
    (s.imageUnder (scopeOf forms)).forms[i] = if forms then (s.slots[i]).active? else none := by
  cases forms <;> simp [State.imageUnder, scopeOf]

/-- Settles O7: the scope is read back, or it is neither of the two. -/
theorem retainScopeRewritesTheImage : Obligations.RetainScopeRewritesTheImage := by
  refine ⟨fun s p b can neither => ?_, fun s p forms can => ?_⟩
  · exact record_of_parsed (act := fun scope s => s.takeRetainScope p scope) can (parseScope_neither neither)
  · refine ⟨s.imageUnder (scopeOf forms), rfl, rfl, imageUnder_forms s forms, ?_⟩
    exact (record_of_parsed (act := fun scope s => s.takeRetainScope p scope) can (parseScope_flag forms)).trans
      (congrArg Host.Outcome.next (takeRetainScope_some (s.taken p) p (scopeOf forms)))

/-! ### COUNTER-SET -/

@[simp] theorem natAt_byte4_succ (n : Nat) (l : List Byte) (i : Nat) : natAt (byte4 n ++ l) (i + 4) = natAt l i := rfl
@[simp] theorem natAt_signed2_succ (n : Int) (l : List Byte) (i : Nat) : natAt (signed2 n ++ l) (i + 2) = natAt l i := rfl
@[simp] theorem nat4At_byte1_succ (n : Nat) (l : List Byte) (i : Nat) : nat4At (byte1 n ++ l) (i + 1) = nat4At l i := rfl
@[simp] theorem nat4At_byte4_succ (n : Nat) (l : List Byte) (i : Nat) : nat4At (byte4 n ++ l) (i + 4) = nat4At l i := rfl
@[simp] theorem nat4At_signed2_succ (n : Int) (l : List Byte) (i : Nat) : nat4At (signed2 n ++ l) (i + 2) = nat4At l i := rfl
@[simp] theorem int2At_byte1_succ (n : Nat) (l : List Byte) (i : Nat) : int2At (byte1 n ++ l) (i + 1) = int2At l i := rfl
@[simp] theorem int2At_byte4_succ (n : Nat) (l : List Byte) (i : Nat) : int2At (byte4 n ++ l) (i + 4) = int2At l i := rfl

/-- A signed number in two bytes is read back (R173). -/
theorem int2At_signed2 {n : Int} (lo : -32768 ≤ n) (hi : n ≤ 32767) (l : List Byte) : int2At (signed2 n ++ l) 0 = n := by
  rw [int2At, signed2, nat2At_byte2 (BitVec.isLt _), BitVec.ofNat_toNat, BitVec.setWidth_eq, BitVec.toInt_ofInt]
  exact Int.bmod_eq_of_le (by omega) (by omega)

/-- What COUNTER-SET carries within its ranges is read back (R40, R173). -/
theorem parseCounterSet_body (c : CounterNo) {start low high : Nat} {step : Int} (policy : CounterPolicy)
    (range : counterInRange start step low high = true) :
    parseCounterSet (counterSetBody c start step low high policy) =
      some { number := c.val, start := start, step := step, low := low, high := high, policy := some policy } := by
  simp only [counterInRange, Bool.and_eq_true, decide_eq_true_eq] at range
  obtain ⟨⟨⟨⟨⟨⟨top, _⟩, _⟩, _⟩, down⟩, up⟩, -⟩ := range
  have number := c.isLt
  have policies : ∃ k, policy.byte = byte1 k ∧ k ≤ 255 ∧ choice2 k CounterPolicy.stop .wrap = some policy := by
    cases policy
    exacts [⟨0, rfl, by decide, rfl⟩, ⟨1, rfl, by decide, rfl⟩]
  obtain ⟨k, policy_byte, small, policy_of⟩ := policies
  have body : counterSetBody c start step low high policy =
      byte1 c.val ++ (byte4 start ++ (signed2 step ++ (byte4 low ++ (byte4 high ++ (byte1 k ++ []))))) := by
    simp [counterSetBody, policy_byte]
  rw [body, parseCounterSet, if_pos (by simp)]
  simp only [natAt_byte1 (show c.val ≤ 255 by omega), natAt_byte1 small, natAt_byte1_succ, natAt_byte4_succ, natAt_signed2_succ,
    nat4At_byte1_succ, nat4At_byte4_succ, nat4At_signed2_succ, int2At_byte1_succ, int2At_byte4_succ,
    nat4At_byte4 (show start < 4294967296 by omega), nat4At_byte4 (show low < 4294967296 by omega),
    nat4At_byte4 (show high < 4294967296 by omega), int2At_signed2 (show -32768 ≤ step by omega) (by omega), policy_of]

/-- A definition within its ranges passes the checks of COUNTER-SET (R39, R40). -/
theorem checked_of_inRange {c : CounterNo} {start low high : Nat} {step : Int} {policy : CounterPolicy}
    (range : counterInRange start step low high = true) (p : Port) :
    CounterSet.checked { number := c.val, start := start, step := step, low := low, high := high, policy := some policy } p =
      some (c, { owner := p, value := start, step := step, low := low, high := high, policy := policy, exhausted := false }) := by
  rw [CounterSet.checked, dif_pos c.isLt]
  exact if_pos range

/-- COUNTER-SET with a definition that passes, for a counter no other port owns (R40, R41). -/
theorem takeCounterSet_of_checked {s : State} {p : Port} {r : CounterSet} {c : CounterNo} {k : Counter}
    (checked : r.checked p = some (c, k)) (own : ∀ k, s.counters[c] = some k → k.owner = p) :
    s.takeCounterSet p r = ((s.setCounter c k).accept p .counterSet []).onPort p PortState.clearExhausted := by
  have mine : ¬ (s.counters[c]).any (fun old => old.owner != p) = true := by
    cases entry : s.counters[c] with
    | none => simp
    | some old => simp [own old entry]
  simp only [State.takeCounterSet, checked, if_neg mine]

/-- Settles O14: the body is read back, its definition passes the checks, and the counter is set. -/
theorem counterSetDefinesTheCounter : Obligations.CounterSetDefinesTheCounter := by
  intro s p c start low high step policy can range own
  have read := record_of_parsed (act := fun r s => s.takeCounterSet p r) can (parseCounterSet_body c policy range)
  rw [takeCounterSet_of_checked (s := s.taken p) (checked_of_inRange range p) own] at read
  exact read

/-! ### COUNTER-FREE -/

theorem exec_counterFree {s : State} {p : Port} {n : Nat} (can : s.canTake p Kind.counterFree.byte (byte1 n)) (hi : n ≤ 255) :
    exec (.counterFree p (byte1 n)) s = .next ((s.taken p).takeCounterFree p n) :=
  record_of_parsed (act := fun n s => s.takeCounterFree p n) can (parseByte_byte1 hi)

theorem counterNo_val (c : CounterNo) : counterNo c.val = some c := dif_pos c.isLt

theorem counterNo_of_ge {n : Nat} (h : 7 < n) : counterNo n = none := dif_neg (by omega)

theorem takeCounterFree_undefined {s : State} {c : CounterNo} (h : s.counters[c] = none) (p : Port) :
    s.takeCounterFree p c.val = s.answer p .counterFree .ignored := by
  simp only [State.takeCounterFree, counterNo_val, h]

theorem takeCounterFree_defined {s : State} {c : CounterNo} {k : Counter} (h : s.counters[c] = some k) (p : Port) :
    s.takeCounterFree p c.val =
      if k.owner != p then s.answer p .counterFree .notOwner
      else (State.retainCounters { s with counters := s.counters.set c none }).accept p .counterFree [] := by
  simp only [State.takeCounterFree, counterNo_val, h]

/-- Settles O15: by whether the number names a counter, and by the counter's entry and owner. -/
theorem counterFreeByCase : Obligations.CounterFreeByCase := by
  intro s p n can hi
  rw [exec_counterFree can hi]
  have named (h : n < 8) : ∃ c : CounterNo, n = c.val := ⟨⟨n, h⟩, rfl⟩
  refine ⟨fun no => ?_, fun h undefined => ?_, fun h k defined other => ?_, fun h k defined own => ?_⟩
  · rw [State.takeCounterFree, counterNo_of_ge no]
  all_goals obtain ⟨c, rfl⟩ := named h
  · rw [takeCounterFree_undefined (s := s.taken p) undefined]
  · rw [takeCounterFree_defined (s := s.taken p) defined, if_pos (by simpa using other)]
  · rw [takeCounterFree_defined (s := s.taken p) defined, if_neg (by simpa using own)]
    rfl

end Sys2Proof.Machine
end

section
/-! PROOFS. An asking with the redo list empty: the copy begun with its counters drawn or previewed, and the draw that fails (O16, O18,
O19). -/

namespace Sys2Proof.Machine

/-! ### One counter -/

/-- A draw whose sum is within the limits moves the value by the step (R44). -/
theorem afterDraw_within {k : Counter} (lo : (k.low : Int) ≤ k.value + k.step) (hi : (k.value : Int) + k.step ≤ k.high) :
    k.afterDraw = { k with value := ((k.value : Int) + k.step).toNat } := if_pos ⟨lo, hi⟩

/-- A draw whose sum is outside the limits exhausts a STOP counter (R44). -/
theorem afterDraw_stop {k : Counter} (out : (k.value : Int) + k.step < k.low ∨ (k.high : Int) < k.value + k.step)
    (stop : k.policy = .stop) : k.afterDraw = { k with exhausted := true } := by
  rw [Counter.afterDraw, if_neg (by omega)]
  simp only [stop]

/-- A draw whose sum is outside the limits takes a WRAP counter to its other limit (R44). -/
theorem afterDraw_wrap {k : Counter} (out : (k.value : Int) + k.step < k.low ∨ (k.high : Int) < k.value + k.step)
    (wrap : k.policy = .wrap) : k.afterDraw = { k with value := if 0 < k.step then k.low else k.high } := by
  rw [Counter.afterDraw, if_neg (by omega)]
  simp only [wrap]

/-! ### The draws of a label start -/

/-- Draws leave the settings of the ports. -/
theorem draws_settings (s : State) (l : List CounterNo) (q : Port) : ((s.draws l).port q).settings = (s.port q).settings := by
  refine foldl_keeps (fun s t => (t.port q).settings = (s.port q).settings) (fun _ => rfl) (fun h k => k.trans h) (fun s c => ?_) l s
  obtain ⟨-, port⟩ | ⟨-, port⟩ := drawOne_port s c q <;> rw [port]
  rfl

/-- The draws of a label start touch the counters, the ports and, where the form needs a counter, the retained counters (R45, R51). -/
theorem drawAll_eq (s : State) (f : Form) :
    s.drawAll f = { s with
      counters := (s.draws f.counters).counters
      ports := (s.draws f.counters).ports
      retained := if f.counters = [] then s.retained
        else ({ s.retained.image with counters := (s.draws f.counters).counters } : Image).sealed } := by
  by_cases none : f.counters = []
  · rw [drawAll_of_none none, if_pos none, none]
    rfl
  · rw [drawAll_of_some none, if_neg none, State.retainCounters, draws_frame]

/-- Where every counter of a list can give, the draws exhaust those whose next value is outside the limits (R44, R47). -/
theorem exhausts_iff_of_gives {s : State} {c : CounterNo} (gives : ∃ k, s.counters[c] = some k ∧ k.exhausted = false) (q : Port) :
    s.exhausts c q ↔ ∃ k, s.counters[c] = some k ∧ k.afterDraw.exhausted = true ∧ k.owner = q := by
  obtain ⟨k, entry, fresh⟩ := gives
  simp [State.exhausts, entry, fresh]

/-! ### A copy begun -/

/-- The next copy of a job counted and taken in hand, with its values (R67, R100). -/
def State.copyBegun (s : State) (j : Job) (values : Values) : State :=
  (s.onJob j.number fun j => { j with composed := j.composed + 1 }).beginLabel j.number (j.composed + 1) values

/-- The copy in hand with the snapshot of a state's ports, and its label record with the values and with fresh counts (R99, R100). -/
def State.HasBegun (s t : State) (j : Job) (values : Values) : Prop :=
  (∃ h : Hand, t.hand = some h ∧ h.job = j.number ∧ h.copy = j.composed + 1 ∧ h.nextBand = 0 ∧
    ∀ q : Port, h.snapshot[q] = ⟨(s.port q).settings.planeMask, (s.port q).settings.stampPlanes⟩) ∧
  (∃ l : LabelRecord, t.labels = s.labels ++ [l] ∧ l.job = j.number ∧ l.copy = j.composed + 1 ∧ l.values = values ∧
    l.truncations = 0 ∧ l.symbolErrors = 0 ∧ l.masked = 0 ∧ l.pauses = 0 ∧
    ∀ k, s.job? j.number = some k → l.fallbacks = k.marks.length)

theorem copyBegun_frame (s : State) (j : Job) (values : Values) :
    s.copyBegun j values = { s with
      queue := s.queue.map fun k => if k.number = j.number then { k with composed := k.composed + 1 } else k
      hand := (s.copyBegun j values).hand, labels := (s.copyBegun j values).labels } := rfl

theorem snapshot_getElem (s : State) (q : Port) :
    s.snapshot[q] = ⟨(s.port q).settings.planeMask, (s.port q).settings.stampPlanes⟩ := by
  simp [State.snapshot, State.port]

/-- A job found by its number after an update that leaves numbers. -/
theorem job?_onJob {s : State} {n : Nat} {f : Job → Job} (number : ∀ k, (f k).number = k.number) {k : Job} (found : s.job? n = some k) :
    (s.onJob n f).job? n = some (f k) := by
  have named : k.number = n := by simpa using List.find?_some found
  have same (i : Job) : (if i.number = n then f i else i).number = i.number := by split <;> simp [number]
  have search : (fun i : Job => (if i.number = n then f i else i).number == n) = fun i => i.number == n := by
    funext i
    rw [same]
  show (s.queue.map _).find? _ = _
  rw [List.find?_map, Function.comp_def, search, show s.queue.find? (fun i => i.number == n) = some k from found]
  simp [named]

/-- A copy begun after its draws is begun as of the state before them: they leave the settings, the queue and the labels (R100). -/
theorem copyBegun_hasBegun {s d : State} (settings : ∀ q, (d.port q).settings = (s.port q).settings) (queue : d.queue = s.queue)
    (labels : d.labels = s.labels) (j : Job) (values : Values) : s.HasBegun (d.copyBegun j values) j values := by
  refine ⟨⟨_, rfl, rfl, rfl, rfl, fun q => ?_⟩, ⟨_, congrArg (· ++ _) labels, rfl, rfl, rfl, rfl, rfl, rfl, rfl, fun k found => ?_⟩⟩
  · rw [← settings]
    exact snapshot_getElem d q
  · have same : d.job? j.number = some k := by rw [State.job?, queue]; exact found
    show (((d.onJob j.number _).job? j.number).map (·.marks.length)).getD 0 = _
    rw [job?_onJob (f := fun j : Job => { j with composed := j.composed + 1 }) (fun _ => rfl) same]
    rfl

/-! ### An asking -/

/-- An asking with the redo list empty takes up the job the Print Queue offers (R65, R99). -/
theorem exec_composerAsk_new {s : State} {j : Job} (runs : s.held = false) (set : s.engine.mode ≠ .unset) (free : s.hand = none)
    (redo : s.redo = []) (room : s.labels.length < 8) (next : s.nextNewCopy = some j) :
    exec .composerAsk s = .next (s.startCopy j) := by
  have asks : s.composerAsks = true := by simp [State.composerAsks, State.labelsInFlight, set, free, redo, room]
  have answer : s.answerAsk = s.startCopy j := by simp only [State.answerAsk, redo, next]
  show execComposerAsk s = _
  rw [execComposerAsk, running_of_not_held runs, if_pos asks, answer]

theorem startCopy_fails {s : State} {j : Job} {f : Form} {c : CounterNo} (form : s.activeForm j.form = some f)
    (lacks : s.lackingCounter f = some c) : s.startCopy j = s.drawFails j c := by
  simp only [State.startCopy, form, lacks]

theorem startCopy_gives {s : State} {j : Job} {f : Form} (form : s.activeForm j.form = some f)
    (gives : ∀ c ∈ f.counters, ∃ k, s.counters[c] = some k ∧ k.exhausted = false) :
    s.startCopy j = (if s.engine.mode = .dry then s else s.drawAll f).copyBegun j (s.counterValues f) := by
  simp only [State.startCopy, form, lackingCounter_none gives]
  rfl

/-- Outside DRY an asking draws the counters and begins the copy (R45, R67). -/
theorem exec_composerAsk_draws {s : State} {j : Job} {f : Form} (runs : s.held = false) (set : s.engine.mode ≠ .unset)
    (wet : s.engine.mode ≠ .dry) (free : s.hand = none) (redo : s.redo = []) (room : s.labels.length < 8)
    (next : s.nextNewCopy = some j) (form : s.activeForm j.form = some f)
    (gives : ∀ c ∈ f.counters, ∃ k, s.counters[c] = some k ∧ k.exhausted = false) :
    exec .composerAsk s = .next ((s.drawAll f).copyBegun j (s.counterValues f)) ∧
      s.HasBegun ((s.drawAll f).copyBegun j (s.counterValues f)) j (s.counterValues f) := by
  refine ⟨?_, copyBegun_hasBegun (fun q => ?_) (by rw [drawAll_eq]) (by rw [drawAll_eq]) ..⟩
  · rw [exec_composerAsk_new runs set free redo room next, startCopy_gives form gives, if_neg wet]
  · rw [drawAll_eq]
    exact draws_settings s f.counters q

/-! ### A failed draw -/

/-- A failed draw touches the job it holds and the ports (R46). -/
theorem drawFails_frame (s : State) (j : Job) (c : CounterNo) :
    s.drawFails j c = { s with
      queue := s.queue.map fun k => if k.number = j.number then { k with counterHold := some c } else k
      ports := (s.drawFails j c).ports } := by
  unfold State.drawFails
  dsimp only
  split
  · split <;> rfl
  · rfl

/-- What is pending at a port once an event is posted to one. -/
theorem isIn_port_post (s : State) (p q : Port) (e e' : Event) :
    e'.isIn ((s.post p e).port q).pending = true ↔ e'.isIn (s.port q).pending = true ∨ p = q ∧ e' = e := by
  by_cases same : p = q
  · subst same
    rw [State.post, port_onPort_self, isIn_post]
    simp
  · rw [State.post, port_onPort_ne _ _ same]
    simp [same]

/-- A failed draw makes JOB-HELD pending at the job's origin (R46). -/
theorem drawFails_jobHeld (s : State) (j : Job) (c : CounterNo) : Event.jobHeld.isIn ((s.drawFails j c).port j.origin).pending = true := by
  unfold State.drawFails
  dsimp only
  split
  · split
    · rw [isIn_port_post, isIn_port_post]
      exact .inl (.inr ⟨rfl, rfl⟩)
    · rw [isIn_port_post]
      exact .inr ⟨rfl, rfl⟩
  · rw [isIn_port_post]
    exact .inr ⟨rfl, rfl⟩

/-- A failed draw on an exhausted counter outside DRY makes COUNTER-EXHAUSTED pending at its owner (R47). -/
theorem drawFails_counterExhausted {s : State} {c : CounterNo} {k : Counter} (entry : s.counters[c] = some k)
    (exhausted : k.exhausted = true) (wet : s.engine.mode ≠ .dry) (j : Job) :
    Event.counterExhausted.isIn ((s.drawFails j c).port k.owner).pending = true := by
  have posts : (k.exhausted && s.engine.mode != .dry) = true := by simp [exhausted, wet]
  simp only [State.drawFails, post_counters, onJob_counters, entry, post_engine, onJob_engine, posts, if_true]
  rw [isIn_port_post]
  exact .inr ⟨rfl, rfl⟩

/-! ### The obligations -/

/-- Settles O16: a draw by where its sum falls; the label start that draws one counter; and the one whose draw fails. -/
theorem drawMovesTheCounterByItsStep : Obligations.DrawMovesTheCounterByItsStep := by
  refine ⟨fun k _ => ⟨fun lo hi => ?_, fun out => ?_, afterDraw_inLimits⟩,
    fun s j f c runs set wet free redo room next form only => ⟨fun k entry fresh => ?_, fun lacks => ?_⟩⟩
  · rw [afterDraw_within lo hi]
    exact ⟨rfl, by dsimp only; omega⟩
  · refine ⟨afterDraw_stop out, fun wrap up => ?_, fun wrap down => ?_⟩
    · rw [afterDraw_wrap out wrap, if_pos up]
    · rw [afterDraw_wrap out wrap, if_neg (by omega)]
  · have gives : ∀ d ∈ f.counters, ∃ k, s.counters[d] = some k ∧ k.exhausted = false := by
      rw [only]
      intro d hd
      obtain rfl := List.mem_singleton.mp hd
      exact ⟨k, entry, fresh⟩
    obtain ⟨start, -, l, labels, -, -, values, -⟩ := exec_composerAsk_draws runs set wet free redo room next form gives
    have drawn (d : CounterNo) : ((s.drawAll f).copyBegun j (s.counterValues f)).counters[d] =
        if d ∈ f.counters then (s.counters[d]).map Counter.afterDraw else s.counters[d] := by
      rw [copyBegun_frame, drawAll_eq]
      exact draws_counters (counters_nodup f) s d
    refine ⟨_, l, start, labels, values.trans ?_, ?_, fun d other => ?_⟩
    · simp only [State.counterValues, only, List.filterMap_cons, List.filterMap_nil, entry, Option.map_some]
    · rw [drawn, if_pos (by simp [only]), entry]
      rfl
    · rw [drawn, if_neg (by simpa [only] using other)]
  · have lacking : s.lackingCounter f = some c := lackingCounter_some (by simp [only]) lacks fun d hd lt => by
      rw [only] at hd
      exact absurd (List.mem_singleton.mp hd) lt.ne
    refine ⟨s.drawFails j c, ?_, ?_⟩
    · rw [exec_composerAsk_new runs set free redo room next, startCopy_fails form lacking]
    · rw [drawFails_frame]
      exact ⟨free, rfl, rfl, rfl⟩

/-- Settles O18: outside DRY the draws and the copy begun after them; in DRY the copy alone. -/
theorem askingStartsACopy : Obligations.AskingStartsACopy := by
  refine ⟨fun s j f runs set wet free redo room next form gives => ?_, fun s j f runs dry free redo room next form gives => ?_⟩
  · obtain ⟨start, hand, label⟩ := exec_composerAsk_draws runs set wet free redo room next form gives
    refine ⟨_, start, fun c => ?_, ?_, ?_, hand, label, fun q e => ?_, fun q silent => ?_, ?_⟩
    all_goals rw [copyBegun_frame, drawAll_eq]
    · exact draws_counters (counters_nodup f) s c
    · refine (draws_pending (counters_nodup f) s q e).trans ?_
      simp only [exists_congr fun c => and_congr_right fun mem => exhausts_iff_of_gives (gives c mem) q]
    · refine draws_port (counters_nodup f) s q fun c mem exhausts => ?_
      obtain ⟨k, entry, after, owner⟩ := (exhausts_iff_of_gives (gives c mem) q).mp exhausts
      exact silent c mem k entry after owner
  · obtain ⟨hand, label⟩ := copyBegun_hasBegun (s := s) (fun _ => rfl) rfl rfl j (s.counterValues f)
    refine ⟨_, ?_, hand, label, copyBegun_frame ..⟩
    rw [exec_composerAsk_new runs (by simp [dry]) free redo room next, startCopy_gives form gives, if_pos dry]

/-- Settles O19: the counter found lacking is the least, and the draw on it fails. -/
theorem failedDrawHoldsTheJob : Obligations.FailedDrawHoldsTheJob := by
  intro s j f c runs set free redo room next form mem lacks least
  refine ⟨s.drawFails j c, ?_, drawFails_jobHeld s j c, fun k entry wet => ?_, drawFails_frame s j c⟩
  · rw [exec_composerAsk_new runs set free redo room next, startCopy_fails form (lackingCounter_some mem lacks least)]
  · exact drawFails_counterExhausted entry (lacks k entry) wet j

end Sys2Proof.Machine
end

section
/-! PROOFS. The queue's order: the job the next copy is of, the redo entry taken before it, the number and the place of a new job (O17, O20,
O21, O22). -/

namespace Sys2Proof.Machine

/-! ### The job the next copy is of -/

/-- Whether the Print Queue offers a job behind some others: READY or ACTIVE, and not blocked (R65, R66). -/
def State.offers (s : State) (before : List Job) (k : Job) : Prop :=
  (s.jobState k = .ready ∨ s.jobState k = .active) ∧
    ((s.port k.origin).settings.sequence = .strict →
      ∀ m ∈ before, m.origin = k.origin → s.jobState m = .draining ∨ s.jobState m = .ready ∨ s.jobState m = .active)

theorem blocked_eq_false_iff (s : State) (before : List Job) (k : Job) : s.blocked before k = false ↔
    ((s.port k.origin).settings.sequence = .strict →
      ∀ m ∈ before, m.origin = k.origin → s.jobState m = .draining ∨ s.jobState m = .ready ∨ s.jobState m = .active) := by
  have passes (x : JobState) : [JobState.opened, .assembling, .held].contains x = false ↔ x = .draining ∨ x = .ready ∨ x = .active := by
    cases x <;> decide
  simp only [State.blocked, Bool.and_eq_false_imp, beq_iff_eq, List.any_eq_false, Bool.and_eq_true, not_and, Bool.not_eq_true, passes]

theorem offers_iff (s : State) (before : List Job) (k : Job) :
    ([JobState.ready, .active].contains (s.jobState k) && !s.blocked before k) = true ↔ s.offers before k := by
  rw [State.offers, ← blocked_eq_false_iff]
  simp

/-- The job found in a stretch of the queue is its first that is offered (R65). -/
theorem nextJobAfter_eq_some_iff (s : State) (before l : List Job) (j : Job) : s.nextJobAfter before l = some j ↔
    ∃ ahead rest, l = ahead ++ j :: rest ∧ s.offers (before ++ ahead) j ∧
      ∀ front k back, ahead = front ++ k :: back → ¬ s.offers (before ++ front) k := by
  induction l generalizing before with
  | nil => simp [State.nextJobAfter]
  | cons x l ih =>
    rw [State.nextJobAfter]
    split
    next offered =>
      rw [offers_iff] at offered
      constructor
      · rintro ⟨⟩
        exact ⟨[], l, rfl, by simpa using offered, by simp⟩
      · rintro ⟨ahead, rest, split, -, first⟩
        cases ahead with
        | nil => rw [(List.cons.inj split).1]
        | cons y ahead =>
          obtain ⟨rfl, -⟩ := List.cons.inj split
          exact absurd (by simpa using offered) (first [] x ahead rfl)
    next passed =>
      rw [offers_iff] at passed
      rw [ih]
      constructor
      · rintro ⟨ahead, rest, rfl, offered, first⟩
        refine ⟨x :: ahead, rest, rfl, by simpa using offered, fun front k back split => ?_⟩
        cases front with
        | nil => rwa [← (List.cons.inj split).1, List.append_nil]
        | cons y front =>
          obtain ⟨rfl, tail⟩ := List.cons.inj split
          simpa using first front k back tail
      · rintro ⟨ahead, rest, split, offered, first⟩
        cases ahead with
        | nil =>
          obtain ⟨rfl, -⟩ := List.cons.inj split
          exact absurd (by simpa using offered) passed
        | cons y ahead =>
          obtain ⟨rfl, rfl⟩ := List.cons.inj split
          refine ⟨ahead, rest, rfl, by simpa using offered, fun front k back split => ?_⟩
          simpa using first (x :: front) k back (congrArg (x :: ·) split)

/-- Settles O17: the search from the head of the queue, with no job ahead of it. -/
theorem nextCopyIsOfTheFirstJobNotBlocked : Obligations.NextCopyIsOfTheFirstJobNotBlocked :=
  fun s j => nextJobAfter_eq_some_iff s [] s.queue j

/-! ### The redo entry before it -/

/-- Settles O20: the composer asks, and the first redo entry is begun. -/
theorem askingTakesTheRedoEntryFirst : Obligations.AskingTakesTheRedoEntryFirst := by
  intro s e rest runs set free redo
  have asks : s.composerAsks = true := by simp [State.composerAsks, set, free, redo]
  have answer : s.answerAsk = s.startRedo e rest := by simp only [State.answerAsk, redo]
  refine ⟨s.startRedo e rest, ?_, ⟨_, rfl, rfl, rfl, rfl, snapshot_getElem s⟩,
    ⟨_, rfl, rfl, rfl, rfl, rfl, rfl, rfl, fun j found => ?_⟩, rfl⟩
  · show execComposerAsk s = _
    rw [execComposerAsk, running_of_not_held runs, if_pos asks, answer]
  · show ((s.job? e.job).map _).getD 0 = _
    rw [found]
    rfl

/-! ### The number of a new job -/

/-- The number found is the first of those tried that no queued job has, or the one after them (R57). -/
theorem freeNumber_eq_iterate (queue : List Job) (fuel n : Nat) : ∃ k ≤ fuel, freeNumber queue fuel n = nextNumber^[k] n ∧
    ∀ i < k, nextNumber^[i] n ∈ queue.map Job.number := by
  induction fuel generalizing n with
  | zero => exact ⟨0, le_rfl, rfl, by simp⟩
  | succ fuel ih =>
    rw [freeNumber]
    split
    next taken =>
      obtain ⟨k, le, found, tried⟩ := ih (nextNumber n)
      refine ⟨k + 1, by omega, found, fun i lt => ?_⟩
      cases i with
      | zero => simpa using taken
      | succ i => exact tried i (by omega)
    next => exact ⟨0, Nat.zero_le _, rfl, by simp⟩

/-- Numbers tried on from a job number that are all queued jobs' are no more than there are jobs (R57). -/
theorem tried_le_length {queue : List Job} {n k : Nat} (few : k ≤ 4095)
    (tried : ∀ i < k, nextNumber^[i] n ∈ queue.map Job.number) : k ≤ queue.length := by
  have distinct : ((List.range k).map fun i => nextNumber^[i] n).Nodup := by
    refine List.Nodup.map_on (fun a ha b hb e => ?_) List.nodup_range
    rw [List.mem_range] at ha hb
    rw [iterate_nextNumber n a (by omega), iterate_nextNumber n b (by omega)] at e
    split_ifs at e <;> omega
  have among : ((List.range k).map fun i => nextNumber^[i] n) ⊆ queue.map Job.number := fun m hm => by
    obtain ⟨i, hi, rfl⟩ := List.mem_map.mp hm
    exact tried i (List.mem_range.mp hi)
  simpa using (List.subperm_of_subset distinct among).length_le

/-- The numbers tried on from a job number are job numbers (R57). -/
theorem iterate_nextNumber_range {n : Nat} (lo : 1 ≤ n) (hi : n ≤ 4095) (k : Nat) :
    1 ≤ nextNumber^[k] n ∧ nextNumber^[k] n ≤ 4095 := by
  induction k with
  | zero => exact ⟨lo, hi⟩
  | succ k ih =>
    rw [Function.iterate_succ_apply', nextNumber]
    split <;> omega

/-- Settles O21: the number found is one of those tried, and 16 jobs cannot have 17 of them. -/
theorem jobNumberIsTheFirstFreeOne : Obligations.JobNumberIsTheFirstFreeOne := by
  intro s room lo hi
  obtain ⟨k, le, found, tried⟩ := freeNumber_eq_iterate s.queue 17 s.nextJob
  have range := iterate_nextNumber_range lo hi k
  rw [← found] at range
  refine ⟨k, (tried_le_length (by omega) tried).trans room, found, fun j mem same => ?_, fun i lt => ?_, range⟩
  · exact freeNumber_free (by omega) _ (List.mem_map.mpr ⟨j, mem, same⟩)
  · simpa using tried i lt

/-! ### The place of a new job -/

/-- Behind a RUSH job's place stand NORMAL jobs with nothing composed (R59). -/
theorem normal_behind_rushPlace (queue : List Job) : ∀ k ∈ queue.drop (rushPlace queue), k.cls = .normal ∧ k.composed = 0 := by
  induction queue with
  | nil => simp
  | cons j rest ih =>
    rw [rushPlace]
    split
    next => exact ih
    next first =>
      rw [Nat.eq_zero_of_not_pos first, List.drop_zero] at ih
      split
      next => exact ih
      next plain =>
        push Not at plain
        have normal : j.cls = .normal := by
          cases h : j.cls
          · rfl
          · exact absurd h plain.1
        exact List.forall_mem_cons.mpr ⟨⟨normal, by omega⟩, ih⟩

/-- Right ahead of a RUSH job's place, unless it is the head, stands a job that is RUSH or has copies composed (R59). -/
theorem rush_ahead_of_rushPlace (queue : List Job) (k : Job) (last : (queue.take (rushPlace queue)).getLast? = some k) :
    k.cls = .rush ∨ 0 < k.composed := by
  induction queue with
  | nil => cases last
  | cons j rest ih =>
    rw [rushPlace] at last
    split at last
    next more =>
      cases ahead : rest.take (rushPlace rest) with
      | nil =>
        obtain none | none := List.take_eq_nil_iff.mp ahead
        · omega
        · rw [none] at more
          cases more
      | cons y l =>
        rw [List.take_succ_cons, ahead, List.getLast?_cons_cons, ← ahead] at last
        exact ih last
    next =>
      split at last
      next holds =>
        obtain rfl : j = k := by simpa using last
        exact holds
      next => cases last

/-- Settles O22: the tail, or the RUSH place with what stands at either side of it. -/
theorem placeInTheQueueByClass : Obligations.PlaceInTheQueueByClass := by
  refine fun j queue => ⟨fun normal => by simp only [placeJob, normal], fun rush => ?_⟩
  refine ⟨_, _, (List.take_append_drop (rushPlace queue) queue).symm, ?_, normal_behind_rushPlace queue, rush_ahead_of_rushPlace queue⟩
  simp only [placeJob, rush]

end Sys2Proof.Machine
end

section
/-! PROOFS. JOB-OPEN, FIELD-DATA, JOB-CLOSE and DISCARD: their bodies read back and what each does to the queue (O23, O25, O26). -/

namespace Sys2Proof.Machine

/-! ### Taking a record leaves the queue as it was -/

@[simp] theorem taken_openJob? (s : State) (p q : Port) : (s.taken p).openJob? q = s.openJob? q := rfl
@[simp] theorem taken_activeForm (s : State) (p : Port) (n : Nat) : (s.taken p).activeForm n = s.activeForm n := rfl
@[simp] theorem taken_jobState (s : State) (p : Port) (j : Job) : (s.taken p).jobState j = s.jobState j := rfl
@[simp] theorem taken_nextFreeNumber (s : State) (p : Port) : (s.taken p).nextFreeNumber = s.nextFreeNumber := rfl

theorem taken_port (s : State) (p q : Port) :
    (s.taken p).port q = if p = q then (s.port q).takeFrame else s.port q := by
  split
  next same => rw [← same, State.taken, port_onPort_self]
  next other => exact port_onPort_ne _ _ other

@[simp] theorem taken_discard (s : State) (p q : Port) : ((s.taken p).port q).discard = (s.port q).discard := by
  rw [taken_port]
  split <;> simp

/-- A record of kind number is read by its two bytes (R171). -/
theorem parseNumber_byte2 {n : Nat} (h : n ≤ 65535) : parseNumber (byte2 n) = some n := by
  rw [parseNumber, if_pos (length_byte2 n)]
  exact congrArg some (nat2At_byte2 (show n < 65536 by omega) [])

/-! ### A job changed twice -/

/-- A job changed in two ways that agree on the queued jobs of its number. -/
theorem onJob_congr {s : State} {n : Nat} {f g : Job → Job} (same : ∀ k ∈ s.queue, k.number = n → f k = g k) :
    s.onJob n f = s.onJob n g := by
  refine congrArg (fun queue => { s with queue := queue }) (List.map_congr_left fun k mem => ?_)
  split
  next number => exact same k mem number
  next => rfl

/-- A job changed and changed again. -/
theorem onJob_onJob {f : Job → Job} (number : ∀ k, (f k).number = k.number) (s : State) (n : Nat) (g : Job → Job) :
    (s.onJob n f).onJob n g = s.onJob n (g ∘ f) := by
  refine congrArg (fun queue => { s with queue := queue }) (List.map_map.trans (List.map_congr_left fun k _ => ?_))
  by_cases same : k.number = n <;> simp [same, number]

theorem onJob_id (s : State) (n : Nat) : s.onJob n id = s := by
  simp [State.onJob]

/-- Where the jobs of a number wait for no contributions, the end of the wait changes nothing (R82). -/
theorem mergeFilled_of_idle {s : State} {n : Nat}
    (idle : ∀ k ∈ s.queue, k.number = n → k.timer = none ∧ k.mergeTimeout = false) : s.mergeFilled n = s := by
  refine (onJob_congr fun k mem same => ?_).trans (onJob_id s n)
  obtain ⟨timer, merges⟩ := idle k mem same
  split
  · rw [← timer, ← merges]
    rfl
  · rfl

/-- A sweep with no pool entry of the key moves and refuses nothing (R86). -/
theorem sweepPool_of_none {s : State} {key : Text} (none : ∀ e ∈ s.pool, e.key ≠ key) (n : Nat) (f : Form) :
    s.sweepPool n f key = s.mergeFilled n := by
  have mine : s.pool.filter (fun e => e.key == key) = [] := List.filter_eq_nil_iff.mpr fun e he => by simpa using none e he
  have rest : s.pool.filter (fun e => e.key != key) = s.pool := List.filter_eq_self.mpr fun e he => by simpa using none e he
  have moved : s.moved f key = [] := by simp [State.moved, mine]
  have kept : (s.onJob n fun j => { j with contribs := j.contribs ++ [] }) = s :=
    (onJob_congr fun j _ _ => by simp).trans (onJob_id s n)
  rw [sweepPool_eq, moved, mine, rest, kept]
  simp [State.refuseContribs]

/-! ### JOB-OPEN -/

/-- A JOB-OPEN within its ranges is read back (R58, R174). -/
theorem parseJobOpen_body {r : JobOpen} (range : r.inRange = true) : parseJobOpen r.body = some (some r) := by
  obtain ⟨form, total, cls, key⟩ := r
  simp only [JobOpen.inRange, Bool.and_eq_true, decide_eq_true_eq] at range
  obtain ⟨⟨⟨⟨f1, f2⟩, t1⟩, t2⟩, valid⟩ := range
  have short : (key.getD []).length ≤ 255 := by
    cases key with
    | none => simp
    | some k =>
      simp only [Option.all_some, validKey, Bool.and_eq_true, decide_eq_true_eq] at valid
      show k.length ≤ 255
      omega
  have cls_at : ∃ c, cls.byte = byte1 c ∧ c ≤ 255 ∧ choice2 c JobClass.normal .rush = some cls := by
    cases cls
    exacts [⟨0, rfl, by decide, rfl⟩, ⟨1, rfl, by decide, rfl⟩]
  obtain ⟨c, cls_byte, small, cls_of⟩ := cls_at
  have body : JobOpen.body ⟨form, total, cls, key⟩ =
      byte1 form ++ (byte2 total ++ (byte1 c ++ (flag1 key.isSome ++ (byte1 (key.getD []).length ++ key.getD [])))) := by
    simp [JobOpen.body, packText, cls_byte]
  have slice : sliceAt (JobOpen.body ⟨form, total, cls, key⟩) 6 (key.getD []).length = key.getD [] := by
    have cut := sliceAt_append (byte1 form ++ byte2 total ++ byte1 c ++ flag1 key.isSome ++ byte1 (key.getD []).length) (key.getD []) []
    simpa [body] using cut
  have length : (JobOpen.body ⟨form, total, cls, key⟩).length = 6 + (key.getD []).length := by
    simp [body]
    omega
  have count : natAt (JobOpen.body ⟨form, total, cls, key⟩) 5 = (key.getD []).length := by
    rw [body]
    simp only [natAt_byte1_succ, natAt_byte2_succ, natAt_flag1_succ]
    exact natAt_byte1 short _
  rw [parseJobOpen, count, slice, if_pos (by simp [length])]
  simp only [body, flagAt, natAt_byte1 (show form ≤ 255 by omega), nat2At_byte2 (show total < 65536 by omega), natAt_byte1 small,
    natAt_byte1_succ, natAt_byte2_succ, nat2At_byte1_succ, natAt_flag1, choice2_toNat, cls_of]
  cases key with
  | none => simp [f1, f2, t1, t2]
  | some k =>
    replace valid : validKey k = true := valid
    simp [f1, f2, t1, t2, valid]

/-- None of the refusals of JOB-OPEN beyond its values applies (R58). -/
theorem openRefusal_eq_none {s : State} {p : Port} {r : JobOpen} {h : HeadProfile} {f : Form} (free : s.openJob? p = none)
    (form : s.activeForm r.form = some f) (own : f.shared = true ∨ f.owner = p) (fits : f.width ≤ h.dots)
    (keyless : r.key = none → ∀ x ∈ f.fields, x.source.isContrib = false) (new : ∀ k, r.key = some k → s.jobWithKey? k = none)
    (room : s.queue.length < 16) : s.openRefusal p r h = none := by
  have mine : ¬ (!f.shared && f.owner != p) = true := by
    obtain own | own := own <;> simp [own]
  have contribs : ¬ (f.fields.any (·.source.isContrib) && r.key.isNone) = true := by
    cases key : r.key with
    | none => simpa using keyless key
    | some k => simp
  have apart : ¬ r.key.any (fun k => (s.jobWithKey? k).isSome) = true := by
    cases key : r.key with
    | none => simp
    | some k => simp [new k key]
  rw [State.openRefusal, if_neg (by simp [free])]
  simp only [form]
  rw [if_neg mine, if_neg (by omega), if_neg contribs, if_neg apart, if_neg (by omega)]

/-- The state once a job is placed, before the pool is swept for it (R57, R59, R63). -/
def State.jobPlaced (s : State) (p : Port) (j : Job) : State :=
  { s with queue := placeJob j s.queue, nextJob := nextNumber j.number }.onPort p fun q => { q with discard := false }

/-- A job opened with no pool entry for it is numbered and placed, and no more (R58, R86). -/
theorem openJob_of_none {s : State} {p : Port} {r : JobOpen} {f : Form} (free : ∀ k ∈ s.queue, k.number ≠ s.nextFreeNumber)
    (none : ∀ k, r.key = some k → ∀ e ∈ s.pool, e.key ≠ k) :
    s.openJob p r f = s.jobPlaced p (r.job s.nextFreeNumber p) := by
  unfold State.openJob
  extract_lets n opened
  split
  next => rfl
  next k key =>
    rw [sweepPool_of_none (s := opened) (none k key)]
    refine mergeFilled_of_idle fun j mem number => ?_
    obtain rfl | old := List.mem_cons.mp ((placeJob_perm (r.job n p) s.queue).subset mem)
    · exact ⟨rfl, rfl⟩
    · exact absurd number (free j old)

/-- Settles O23: the body is read back, nothing refuses it, and the job is placed. -/
theorem jobOpenPlacesTheJob : Obligations.JobOpenPlacesTheJob := by
  intro s p r h f can range profile free form own fits keyless new room j numbers
  have accepted : (s.taken p).openRefusal p r h = none :=
    openRefusal_eq_none (s := s.taken p) free form own fits keyless (fun k key => (new k key).1) room
  have opened : (s.taken p).takeJobOpen p (some r) = ((s.taken p).openJob p r f).accept p .jobOpen (byte2 s.nextFreeNumber) := by
    simp only [State.takeJobOpen, show (s.taken p).profile = some h from profile, accepted, taken_activeForm, form, taken_nextFreeNumber]
  have read := record_of_parsed (act := fun r s => s.takeJobOpen p r) can (parseJobOpen_body range)
  rw [opened, openJob_of_none (s := s.taken p) numbers fun k key => (new k key).2] at read
  exact read

/-! ### FIELD-DATA -/

theorem parseFieldData_body {n : Nat} {v : Text} (hn : n ≤ 255) (hv : v.length ≤ 255) :
    parseFieldData (fieldDataBody n v) = some (n, v) := by
  have count : natAt (fieldDataBody n v) 1 = v.length := natAt_byte1 hv v
  have number : natAt (fieldDataBody n v) 0 = n := natAt_byte1 hn _
  have length : (fieldDataBody n v).length = 2 + v.length := by
    simp [fieldDataBody]
    omega
  rw [parseFieldData, count, number, if_pos (by simp [length])]
  rfl

/-- A value stored for a field is the field's, and the other fields keep theirs (R61). -/
theorem putData_dataValue? (j : Job) (n m : Nat) (v : Text) :
    (j.putData n v).dataValue? m = if m = n then some v else j.dataValue? m := by
  unfold Job.putData
  split
  next held =>
    show ((j.data.map _).find? _).map _ = _
    have search : (fun d : Nat × Text => (if d.1 = n then (n, v) else d).1 == m) = fun d => d.1 == m := by
      funext d
      split
      next same => rw [same]
      next => rfl
    rw [List.find?_map, Function.comp_def, search, Job.dataValue?]
    cases found : j.data.find? fun d => d.1 == m with
    | none =>
      split
      next same =>
        subst same
        simp [Job.dataValue?, found] at held
      next => rfl
    | some d =>
      obtain rfl : d.1 = m := by simpa using List.find?_some found
      simp only [Option.map_some]
      split <;> rfl
  next none =>
    show ((j.data ++ [(n, v)]).find? _).map _ = _
    rw [List.find?_append]
    split
    next same =>
      subst same
      have new : j.data.find? (fun d => d.1 == m) = Option.none := by
        cases found : j.data.find? fun d => d.1 == m with
        | none => rfl
        | some d => simp [Job.dataValue?, found] at none
      simp [new]
    next other =>
      have others : [(n, v)].find? (fun d : Nat × Text => d.1 == m) = Option.none := by simpa using fun e => other e.symm
      rw [others, Option.or_none, Job.dataValue?]

theorem exec_fieldData {s : State} {p : Port} {n : Nat} {v : Text} (can : s.canTake p Kind.fieldData.byte (fieldDataBody n v))
    (hn : n ≤ 255) (hv : v.length ≤ 255) : exec (.fieldData p (fieldDataBody n v)) s = .next ((s.taken p).takeFieldData p n v) :=
  record_of_parsed (act := fun (r : Nat × Text) s => s.takeFieldData p r.1 r.2) (r := (n, v)) can (parseFieldData_body hn hv)

/-- FIELD-DATA for a JOB field of the OPEN job's form, with room in the value store (R61). -/
theorem takeFieldData_stores_value {s : State} {p : Port} {n : Nat} {v : Text} {j : Job} {f : Form} (going : (s.port p).discard = false)
    (opened : s.openJob? p = some j) (n1 : 1 ≤ n) (n96 : n ≤ 96) (v64 : v.length ≤ 64) (form : s.activeForm j.form = some f)
    (field : ∃ x ∈ f.fields, x.number = n ∧ x.source = .job)
    (room : v.length ≤ s.valuesFree + (j.dataValue? n).elim 0 List.length) :
    s.takeFieldData p n v = (s.onJob j.number (·.putData n v)).accept p .fieldData [] := by
  have has : f.hasJobField n = true := by simpa [Form.hasJobField] using field
  have takes : s.storeTakes ((j.dataValue? n).elim 0 List.length) v.length = true := by simpa [State.storeTakes] using room
  simp only [State.takeFieldData, going, opened, form, Option.any_some, has, takes]
  rw [if_neg Bool.false_ne_true, if_neg (by omega), if_neg (by decide), if_neg (by decide)]

/-! ### DISCARD -/

theorem exec_discard {s : State} {p : Port} (can : s.canTake p Kind.discard.byte []) : exec (.discard p []) s =
    .next ((((s.taken p).dropOpenJob p).onPort p fun q => { q with discard := true }).accept p .discard []) :=
  record_of_parsed (act := fun _ s => ((s.dropOpenJob p).onPort p fun q => { q with discard := true }).accept p .discard [])
    (parse := parseEmpty) can rfl

/-- What a port holds once a job has left the queue (R74). -/
theorem leaveQueue_port (s : State) (n : Nat) (q : Port) :
    (s.leaveQueue n).port q = { s.port q with watch := (s.port q).watch.filter (fun w => w.job != n) } :=
  port_mapPorts s _ q

theorem accept_port (s : State) (p q : Port) (k : Kind) (d : List Byte) : (s.accept p k d).port q =
    if p = q then { s.port q with sent := (s.port q).sent ++ [.reply (k.byte ||| 0x80#8) (ReplyCode.accept.byte :: d)] } else s.port q := by
  split
  next same => rw [← same, State.accept, State.reply, port_onPort_self]
  next other => exact port_onPort_ne _ _ other

/-- Settles O25: FIELD-DATA in discard state and with room for its value; DISCARD without an OPEN job and with one. -/
theorem fieldDataIsStoredUntilDiscard : Obligations.FieldDataIsStoredUntilDiscard := by
  refine ⟨fun s p n v can hn hv => ?_, fun s p can => ⟨fun none => ?_, fun j opened => ?_⟩⟩
  · rw [exec_fieldData can hn hv]
    refine ⟨fun discards => ?_, fun j f going opened n1 n96 v64 form field room =>
      ⟨(·.putData n v), ?_, fun k => ⟨?_, fun m other => ?_, rfl⟩⟩⟩
    · rw [State.takeFieldData, taken_discard, if_pos discards]
    · rw [takeFieldData_stores_value (s := s.taken p) ((taken_discard ..).trans going) opened n1 n96 v64 form field room]
    · rw [putData_dataValue?, if_pos rfl]
    · rw [putData_dataValue?, if_neg other]
  · rw [exec_discard can, State.dropOpenJob, taken_openJob?, none]
  · rw [exec_discard can, State.dropOpenJob, taken_openJob?, opened]
    have self : (((((s.taken p).leaveQueue j.number).onPort p fun q => { q with discard := true }).accept p .discard []).port p) =
        { ((s.taken p).leaveQueue j.number).port p with
          discard := true
          sent := (((s.taken p).leaveQueue j.number).port p).sent ++ [.reply (Kind.discard.byte ||| 0x80#8) [ReplyCode.accept.byte]] } := by
      rw [accept_port, if_pos rfl, port_onPort_self]
    have other (q : Port) (ne : q ≠ p) :
        (((((s.taken p).leaveQueue j.number).onPort p fun q => { q with discard := true }).accept p .discard []).port q) =
          { s.port q with watch := (s.port q).watch.filter (fun w => w.job != j.number) } := by
      rw [accept_port, if_neg ne.symm, port_onPort_ne _ _ ne.symm, leaveQueue_port, taken_port, if_neg ne.symm]
    refine ⟨_, rfl, rfl, fun q => ?_, by rw [self], fun q ne => ?_, rfl⟩
    · by_cases same : q = p
      · rw [same, self, leaveQueue_port, taken_port, if_pos rfl]
        simp
      · rw [other q same]
    · rw [other q ne]
      exact ⟨rfl, rfl⟩

/-! ### JOB-CLOSE -/

theorem exec_jobClose {s : State} {p : Port} (can : s.canTake p Kind.jobClose.byte []) :
    exec (.jobClose p []) s = .next ((s.taken p).takeJobClose p) :=
  record_of_parsed (act := fun _ s => s.takeJobClose p) (parse := parseEmpty) can rfl

/-- The merge timer a close starts: at the form's timeout where a required contribution is missing (R87). -/
def Form.closeTimer (f : Form) (lacking : List Nat) : Option Nat :=
  if lacking ≠ [] ∧ 0 < f.mergeTimeout then some f.mergeTimeout else none

theorem startTimer_eq (s : State) (n : Nat) (f : Form) :
    s.startTimer n f = s.onJob n fun j => { j with timer := f.closeTimer (s.missing j) } := by
  refine congrArg (s.onJob n) (funext fun j => ?_)
  simp [Form.closeTimer]

/-- A job closed with no pool entry for it, its merge timer started where one is called for (R62, R87). -/
theorem closeJob_of_none {s : State} {j : Job} {f : Form} (form : s.activeForm j.form = some f) (none : ∀ e ∈ s.pool, j.key ≠ some e.key)
    (sole : ∀ k ∈ s.queue, k.number = j.number → k = j) (merges : j.mergeTimeout = false) (idle : j.timer = Option.none) :
    s.closeJob j = s.onJob j.number fun k => { k with closed := true, timer := f.closeTimer (s.missing j) } := by
  set closed := s.onJob j.number fun k => { k with closed := true } with closed_eq
  have quiet : closed.mergeFilled j.number = closed := mergeFilled_of_idle fun k mem same => by
    obtain ⟨i, queued, rfl⟩ := List.mem_map.mp mem
    have number : i.number = j.number := by
      split at same <;> exact same
    rw [if_pos number, sole i queued number]
    exact ⟨idle, merges⟩
  have timed : closed.startTimer j.number f =
      s.onJob j.number fun k => { k with closed := true, timer := f.closeTimer (s.missing j) } := by
    rw [startTimer_eq, closed_eq, onJob_onJob (f := fun k => { k with closed := true }) fun _ => rfl]
    refine onJob_congr fun k mem same => ?_
    rw [sole k mem same]
    rfl
  rw [State.closeJob, ← closed_eq]
  simp only [show closed.activeForm j.form = some f from form]
  split
  next => exact timed
  next key key_eq => rw [sweepPool_of_none (s := closed) fun e mem same => none e mem (by rw [key_eq, same]), quiet, timed]

/-- Settles O26: the close accepted, and the state of the job it closes. -/
theorem jobCloseStartsTheTimer : Obligations.JobCloseStartsTheTimer := by
  intro s p j f can going opened form none sole merges idle timer
  refine ⟨?_, fun active free fresh => ?_⟩
  · rw [exec_jobClose can, State.takeJobClose, taken_discard, going, if_neg Bool.false_ne_true, taken_openJob?, opened]
    exact congrArg (fun t : State => Host.Outcome.next (t.accept p .jobClose []))
      (closeJob_of_none (s := s.taken p) form none sole merges idle)
  · have held : Job.isHeld { j with closed := true, timer := timer } = false := free
    have lacking : s.missing { j with closed := true, timer := timer } = s.missing j := rfl
    rw [State.jobState, lacking, Job.stateWith, if_neg (by simp), if_neg (by simp [active]), if_neg (by simp [held]), if_pos fresh]
    simp only [List.isEmpty_iff]

end Sys2Proof.Machine
end

section
/-! PROOFS. JOB-HOLD and JOB-RELEASE in every case, and what JOB-QUERY's reply says (O27, O29). -/

namespace Sys2Proof.Machine

/-! ### The job a record names -/

theorem ownJob_out_of_range {n : Nat} (out : n = 0 ∨ 4095 < n) (s : State) (p : Port) : s.ownJob p n = .error .badValue :=
  if_pos (by omega)

theorem job?_of_none {s : State} {n : Nat} (none : ∀ k ∈ s.queue, k.number ≠ n) : s.job? n = Option.none :=
  List.find?_eq_none.mpr fun k mem => by simpa using none k mem

theorem ownJob_missing {s : State} {n : Nat} (lo : 1 ≤ n) (hi : n ≤ 4095) (none : ∀ k ∈ s.queue, k.number ≠ n) (p : Port) :
    s.ownJob p n = .error .jobMissing := by
  simp only [State.ownJob, if_neg (show ¬ (n < 1 ∨ 4095 < n) by omega), job?_of_none none]

theorem ownJob_of_found {s : State} {n : Nat} (lo : 1 ≤ n) (hi : n ≤ 4095) {j : Job} (found : s.job? n = some j) (p : Port) :
    s.ownJob p n = if j.origin ≠ p then .error .notOwner else .ok j := by
  simp only [State.ownJob, if_neg (show ¬ (n < 1 ∨ 4095 < n) by omega), found, bne_iff_ne]

/-! ### JOB-HOLD and JOB-RELEASE -/

theorem exec_jobHold {s : State} {p : Port} {n : Nat} (can : s.canTake p Kind.jobHold.byte (byte2 n)) (hi : n ≤ 65535) :
    exec (.jobHold p (byte2 n)) s = .next ((s.taken p).takeJobHold p n) :=
  record_of_parsed (act := fun n s => s.takeJobHold p n) can (parseNumber_byte2 hi)

theorem exec_jobRelease {s : State} {p : Port} {n : Nat} (can : s.canTake p Kind.jobRelease.byte (byte2 n)) (hi : n ≤ 65535) :
    exec (.jobRelease p (byte2 n)) s = .next ((s.taken p).takeJobRelease p n) :=
  record_of_parsed (act := fun n s => s.takeJobRelease p n) can (parseNumber_byte2 hi)

theorem takeJobHold_error {s : State} {p : Port} {n : Nat} {code : ReplyCode} (refused : s.ownJob p n = .error code) :
    s.takeJobHold p n = s.answer p .jobHold code := by
  simp only [State.takeJobHold, refused]

theorem takeJobHold_ok {s : State} {p : Port} {n : Nat} {j : Job} (own : s.ownJob p n = .ok j) :
    s.takeJobHold p n =
      if s.jobState j = .opened then s.answer p .jobHold .badSequence
      else if s.jobState j = .draining ∨ j.operator = true then s.answer p .jobHold .ignored
      else (s.onJob n fun j => { j with operator := true }).accept p .jobHold [] := by
  simp only [State.takeJobHold, own, Bool.or_eq_true, decide_eq_true_eq]

theorem takeJobRelease_error {s : State} {p : Port} {n : Nat} {code : ReplyCode} (refused : s.ownJob p n = .error code) :
    s.takeJobRelease p n = s.answer p .jobRelease code := by
  simp only [State.takeJobRelease, refused]

theorem takeJobRelease_ok {s : State} {p : Port} {n : Nat} {j : Job} (own : s.ownJob p n = .ok j) :
    s.takeJobRelease p n =
      if s.jobState j = .opened ∨ j.operator = false then s.answer p .jobRelease .ignored
      else (s.onJob n fun j => { j with operator := false }).accept p .jobRelease [] := by
  simp only [State.takeJobRelease, own, Bool.or_eq_true, decide_eq_true_eq, Bool.not_eq_true']

/-- A job neither OPEN nor DRAINING that gets OPERATOR is HELD (R56). -/
theorem jobState_with_operator {s : State} {j : Job} (closed : s.jobState j ≠ .opened) (goes : s.jobState j ≠ .draining) :
    s.jobState { j with operator := true } = .held := by
  unfold State.jobState Job.stateWith at closed goes
  have isClosed : j.closed = true := by
    by_contra h
    simp [h] at closed
  have active : j.cancelled = false := by
    by_contra h
    simp [isClosed, h] at goes
  rw [State.jobState, Job.stateWith, if_neg (by simp [isClosed]), if_neg (by simp [active]), if_pos (by simp [Job.isHeld])]

/-- Settles O27: by the number, the job it names and its origin; then by the job's state and its OPERATOR. -/
theorem holdAndReleaseMoveOperatorAlone : Obligations.HoldAndReleaseMoveOperatorAlone := by
  refine ⟨fun s p n can word => ?_, fun s p n can word => ?_⟩
  · rw [exec_jobHold can word]
    refine ⟨fun out => ?_, fun lo hi none => ?_, fun lo hi j found => ?_⟩
    · rw [takeJobHold_error (s := s.taken p) (ownJob_out_of_range out _ _)]
    · rw [takeJobHold_error (s := s.taken p) (ownJob_missing (s := s.taken p) lo hi none p)]
    · have own : (s.taken p).ownJob p n = if j.origin ≠ p then .error .notOwner else .ok j := ownJob_of_found lo hi found p
      refine ⟨fun other => ?_, fun mine opened => ?_, fun mine draining => ?_, fun mine closed held => ?_,
        fun mine closed goes free => ⟨?_, jobState_with_operator closed goes⟩⟩
      · rw [takeJobHold_error (own.trans (if_pos other))]
      all_goals rw [takeJobHold_ok (own.trans (if_neg (not_not.mpr mine))), taken_jobState]
      · rw [if_pos opened]
      · rw [if_neg (by simp [draining]), if_pos (.inl draining)]
      · rw [if_neg closed, if_pos (.inr held)]
      · rw [if_neg closed, if_neg (by simp [goes, free])]
  · rw [exec_jobRelease can word]
    refine ⟨fun out => ?_, fun lo hi none => ?_, fun lo hi j found => ?_⟩
    · rw [takeJobRelease_error (s := s.taken p) (ownJob_out_of_range out _ _)]
    · rw [takeJobRelease_error (s := s.taken p) (ownJob_missing (s := s.taken p) lo hi none p)]
    · have own : (s.taken p).ownJob p n = if j.origin ≠ p then .error .notOwner else .ok j := ownJob_of_found lo hi found p
      refine ⟨fun other => ?_, fun mine nothing => ?_, fun mine closed held => ?_⟩
      · rw [takeJobRelease_error (own.trans (if_pos other))]
      all_goals rw [takeJobRelease_ok (own.trans (if_neg (not_not.mpr mine))), taken_jobState]
      · rw [if_pos nothing]
      · rw [if_neg (by simp [closed, held])]

/-! ### JOB-QUERY -/

theorem exec_jobQuery {s : State} {p : Port} {n : Nat} (can : s.canTake p Kind.jobQuery.byte (byte2 n)) (hi : n ≤ 4095) :
    exec (.jobQuery p (byte2 n)) s = .next ((s.taken p).takeJobQuery p n) :=
  record_of_parsed (act := fun n s => s.takeJobQuery p n) can (parseNumber_byte2 (by omega))

/-- JOB-QUERY 0, and of a queued job (R77, R178). -/
theorem takeJobQuery_zero (s : State) (p : Port) :
    s.takeJobQuery p 0 = (s.accept p .jobQuery s.queueReport).onPort p PortState.clearHeld := by
  simp [State.takeJobQuery]

theorem takeJobQuery_of_found {s : State} {n : Nat} (lo : 1 ≤ n) (hi : n ≤ 4095) {j : Job} (found : s.job? n = some j) (p : Port) :
    s.takeJobQuery p n = (s.accept p .jobQuery (s.jobDetail j)).onPort p PortState.clearHeld := by
  simp only [State.takeJobQuery, if_neg (show ¬ 4095 < n by omega), if_neg (show n ≠ 0 by omega), found]

theorem natAt_drop (l : List Byte) (i k : Nat) : natAt (l.drop i) k = natAt l (i + k) := by
  simp [natAt, List.getD_eq_getElem?_getD]

theorem nat2At_drop (l : List Byte) (i k : Nat) : nat2At (l.drop i) k = nat2At l (i + k) := by
  rw [nat2At, natAt_drop, natAt_drop]
  rfl

/-- The hold reasons are three bytes: the flags, and the presence and the number of a counter (R77). -/
theorem holdBytes_eq (j : Job) : j.holdBytes =
    byte1 (j.operator.toNat + 2 * j.mergeTimeout.toNat + 4 * j.counterHold.isSome.toNat) ++
      (byte1 j.counterHold.isSome.toNat ++ byte1 (j.counterHold.elim 0 Fin.val)) := by
  unfold Job.holdBytes
  cases j.counterHold <;> rfl

/-- The lists that end JOB-QUERY's reply on one job: values, contributions, missing fields and marks, and the timer (R77). -/
def State.jobLists (s : State) (j : Job) : List Byte :=
  byte1 j.data.length ++ j.data.flatMap (fun x => byte1 x.1 ++ byte1 x.2.length) ++
    byte1 j.contribs.length ++ j.contribs.flatMap (fun c => byte1 c.field ++ byte1 c.port.val ++ byte1 c.value.length) ++
    byte1 (s.missing j).length ++ (s.missing j).flatMap byte1 ++ byte1 j.marks.length ++ j.marks.flatMap byte1 ++
    byte1 (j.timer.getD 0)

/-- What follows the key in JOB-QUERY's reply on one job (R77). -/
def State.jobAfterKey (s : State) (j : Job) : List Byte :=
  byte1 j.form ++ (byte1 j.cls.number ++ (byte1 (s.jobState j).number ++
    (byte1 (j.operator.toNat + 2 * j.mergeTimeout.toNat + 4 * j.counterHold.isSome.toNat) ++
      (byte1 j.counterHold.isSome.toNat ++ (byte1 (j.counterHold.elim 0 Fin.val) ++
        (flag1 j.cancelled ++ (byte2 j.total ++ (byte2 j.composed ++ (byte2 j.completed ++ s.jobLists j)))))))))

/-- JOB-QUERY's reply on one job: its number and origin, its key, and the rest (R77). -/
theorem jobDetail_eq (s : State) (j : Job) : s.jobDetail j =
    byte2 j.number ++ (byte1 j.origin.val ++ (byte1 (j.key.getD []).length ++ (j.key.getD [] ++ s.jobAfterKey j))) := by
  simp [State.jobDetail, State.jobReport, State.jobAfterKey, State.jobLists, holdBytes_eq, packText, packList]

theorem drop_jobDetail (s : State) (j : Job) : (s.jobDetail j).drop (4 + (j.key.getD []).length) = s.jobAfterKey j := by
  rw [jobDetail_eq, ← List.drop_drop]
  exact List.drop_left

theorem drop_jobAfterKey (s : State) (j : Job) : (s.jobAfterKey j).drop 13 = s.jobLists j := by
  unfold State.jobAfterKey
  cases j.cancelled <;> rfl

/-- A byte after the key (R77). -/
theorem natAt_jobDetail (s : State) (j : Job) (i : Nat) :
    natAt (s.jobDetail j) (4 + i + (j.key.getD []).length) = natAt (s.jobAfterKey j) i := by
  rw [← drop_jobDetail, natAt_drop]
  congr 1
  omega

/-- Two bytes after the key (R77). -/
theorem nat2At_jobDetail (s : State) (j : Job) (i : Nat) :
    nat2At (s.jobDetail j) (4 + i + (j.key.getD []).length) = nat2At (s.jobAfterKey j) i := by
  rw [← drop_jobDetail, nat2At_drop]
  congr 1
  omega

/-- The one-byte items after the key: form, class, state, hold reasons and the cancelled flag (R77). -/
theorem natAt_jobAfterKey (s : State) (j : Job) : (j.form ≤ 255 → natAt (s.jobAfterKey j) 0 = j.form) ∧
    natAt (s.jobAfterKey j) 1 = j.cls.number ∧ natAt (s.jobAfterKey j) 2 = (s.jobState j).number ∧
    natAt (s.jobAfterKey j) 3 = j.operator.toNat + 2 * j.mergeTimeout.toNat + 4 * j.counterHold.isSome.toNat ∧
    natAt (s.jobAfterKey j) 4 = j.counterHold.isSome.toNat ∧ natAt (s.jobAfterKey j) 5 = j.counterHold.elim 0 Fin.val ∧
    natAt (s.jobAfterKey j) 6 = j.cancelled.toNat := by
  have cls : j.cls.number ≤ 255 := by cases j.cls <;> decide
  have state : (s.jobState j).number ≤ 255 := by cases s.jobState j <;> decide
  have flag (b : Bool) : b.toNat ≤ 1 := b.toNat_le
  have operator := flag j.operator
  have merges := flag j.mergeTimeout
  have present := flag j.counterHold.isSome
  have counter : j.counterHold.elim 0 Fin.val ≤ 255 := by
    cases j.counterHold with
    | none => simp
    | some c => exact c.isLt.le.trans (by decide)
  unfold State.jobAfterKey
  simp only [natAt_byte1_succ]
  exact ⟨fun form => natAt_byte1 form _, natAt_byte1 cls _, natAt_byte1 state _, natAt_byte1 (by omega) _, natAt_byte1 (by omega) _,
    natAt_byte1 counter _, natAt_flag1 ..⟩

/-- The two-byte items after the key: total, copies composed and copies completed (R77). -/
theorem nat2At_jobAfterKey (s : State) (j : Job) : (j.total < 65536 → nat2At (s.jobAfterKey j) 7 = j.total) ∧
    (j.composed < 65536 → nat2At (s.jobAfterKey j) 9 = j.composed) ∧ (j.completed < 65536 → nat2At (s.jobAfterKey j) 11 = j.completed) := by
  unfold State.jobAfterKey
  simp only [nat2At_byte1_succ, nat2At_flag1_succ, nat2At_byte2_succ]
  exact ⟨fun h => nat2At_byte2 h _, fun h => nat2At_byte2 h _, fun h => nat2At_byte2 h _⟩

theorem job?_number {s : State} {n : Nat} {j : Job} (found : s.job? n = some j) : j.number = n := by
  simpa using List.find?_some found

/-- Settles O29: the reply on the queue and that on one job, read item by item. -/
theorem jobQueryReportsTheQueue : Obligations.JobQueryReportsTheQueue := by
  intro s p n can cleared
  refine ⟨fun zero => ?_, fun lo hi j found => ?_⟩
  · subst zero
    refine ⟨s.queueReport, (exec_jobQuery can (by omega)).trans (congrArg _ (takeJobQuery_zero (s.taken p) p)), fun few => ?_, ?_,
      fun few => ?_, rfl⟩
    · exact natAt_byte1 few (packList s.jobReport s.queue)
    · exact nat2At_byte2 (Nat.lt_of_le_of_lt (Nat.sub_le ..) (by decide)) _
    · exact natAt_byte1 few (s.queue.flatMap s.jobReport)
  · refine ⟨s.jobDetail j, (exec_jobQuery can hi).trans (congrArg _ (takeJobQuery_of_found (s := s.taken p) lo hi found p)), ?_, ?_,
      fun k key short => ?_⟩
    · rw [jobDetail_eq, job?_number found]
      exact nat2At_byte2 (by omega) _
    · rw [jobDetail_eq]
      simp only [natAt_byte2_succ]
      exact natAt_byte1 (j.origin.isLt.le.trans (by decide)) _
    · have byte (i : Nat) := natAt_jobDetail s j i
      have pair (i : Nat) := nat2At_jobDetail s j i
      have tail := drop_jobDetail s j
      obtain ⟨form, cls, state, holds, present, counter, cancelled⟩ := natAt_jobAfterKey s j
      obtain ⟨total, composed, completed⟩ := nat2At_jobAfterKey s j
      rw [key] at byte pair tail
      refine ⟨?_, ?_, fun h => (byte 0).trans (form (by omega)), (byte 1).trans cls, (byte 2).trans state, (byte 3).trans holds,
        (byte 4).trans present, fun c hold => ?_, (byte 6).trans cancelled, fun h => (pair 7).trans (total (by omega)),
        fun h => (pair 9).trans (composed (by omega)), fun h => (pair 11).trans (completed (by omega)), ?_⟩
      · rw [jobDetail_eq, key]
        simp only [natAt_byte2_succ, natAt_byte1_succ]
        exact natAt_byte1 (by omega) _
      · rw [jobDetail_eq, key]
        exact List.take_left
      · rw [show 9 + k.length = 4 + 5 + k.length by omega, byte 5, counter, hold]
        rfl
      · rw [show 17 + k.length = (4 + k.length) + 13 by omega, ← List.drop_drop, tail, drop_jobAfterKey]
        rfl

end Sys2Proof.Machine
end

section
/-! PROOFS. What settling does to jobs, labels and ports, and the relation of states the engine's look and the end of a VOIDED label have: the
ring gives up FULL bands, the queue jobs and the ports watches, and no cancelled job stays without a label in flight. -/

namespace Sys2Proof.Machine

/-! ### Settling -/

/-- No cancelled job is queued without a label in flight (R72). -/
def State.cancelledFly (s : State) : Prop := ∀ k ∈ s.queue, k.cancelled = true → s.jobInFlight k.number = true

/-- Every label record is of a label in the composer, in the ring or at the head (R99). -/
def State.labelsHeld (s : State) : Prop := ∀ l ∈ s.labels, s.holdsLabel l.job l.copy = true

theorem jobInFlight_iff (s : State) (n : Nat) :
    s.jobInFlight n = true ↔ (∃ l ∈ s.labels, l.job = n) ∨ ∃ e ∈ s.redo, e.job = n := by
  simp [State.jobInFlight]

theorem foldl_leaveQueue_queue (l : List Job) (s : State) :
    (l.foldl (fun s j => s.leaveQueue j.number) s).queue = s.queue.filter fun k => l.all fun j => k.number != j.number := by
  induction l generalizing s with
  | nil => simp
  | cons j l ih =>
    rw [List.foldl_cons, ih]
    show (s.queue.filter _).filter _ = _
    rw [List.filter_filter]
    congr 1
    funext k
    rw [List.all_cons, Bool.and_comm]

/-- Jobs that leave the queue leave each port as it was but for its watch (R74). -/
theorem foldl_leaveQueue_port (l : List Job) (s : State) (q : Port) :
    ∃ w, (l.foldl (fun s j => s.leaveQueue j.number) s).port q = { s.port q with watch := w } ∧
      ∀ x, w = some x → (s.port q).watch = some x := by
  induction l generalizing s with
  | nil => exact ⟨_, rfl, fun _ => id⟩
  | cons j l ih =>
    obtain ⟨w, port, old⟩ := ih (s.leaveQueue j.number)
    rw [leaveQueue_port] at port old
    exact ⟨w, port, fun x h => (Option.filter_eq_some_iff.mp (old x h)).1⟩

@[simp] theorem settle_redo (s : State) : s.settle.redo = s.redo := by rw [settle_frame]
@[simp] theorem settle_ring (s : State) : s.settle.ring = s.ring := by rw [settle_frame]
@[simp] theorem settle_hand (s : State) : s.settle.hand = s.hand := by rw [settle_frame]
@[simp] theorem settle_engine (s : State) : s.settle.engine = s.engine := by rw [settle_frame]
@[simp] theorem settle_settings (s : State) : s.settle.settings = s.settings := by rw [settle_frame]

@[simp] theorem settle_buffer (s : State) (i : Fin 8) : s.settle.buffer i = s.buffer i := by simp [State.buffer]

@[simp] theorem settle_takeFull? (s : State) : s.settle.takeFull? = s.takeFull? := by simp [State.takeFull?]

@[simp] theorem settle_holdsLabel (s : State) (job copy : Nat) : s.settle.holdsLabel job copy = s.holdsLabel job copy := by
  simp [State.holdsLabel, State.inHand, State.inRing, State.atHead]

/-- Settling takes out the jobs of every number under which a cancelled job has no label in flight (R72). -/
theorem settle_queue (s : State) : s.settle.queue =
    s.queue.filter fun k => s.queue.all fun j => !(j.cancelled && !s.settle.jobInFlight j.number) || k.number != j.number := by
  have flight (n : Nat) : s.settle.jobInFlight n =
      State.jobInFlight { s with labels := s.labels.filter (fun l => s.holdsLabel l.job l.copy) } n := by
    simp only [State.jobInFlight, settle_labels, settle_redo]
  simp only [flight]
  unfold State.settle
  rw [foldl_leaveQueue_queue]
  simp only [List.all_filter]

theorem mem_settle_queue {s : State} {k : Job} : k ∈ s.settle.queue ↔ k ∈ s.queue ∧
    ∀ j ∈ s.queue, j.number = k.number → j.cancelled = true → s.settle.jobInFlight k.number = true := by
  rw [settle_queue, List.mem_filter, List.all_eq_true]
  refine and_congr_right fun _ => forall₂_congr fun j _ => ?_
  by_cases same : j.number = k.number
  · cases j.cancelled <;> simp [same]
  · simp [same, Ne.symm same]

theorem settle_cancelledFly (s : State) : s.settle.cancelledFly := fun k mem cancelled =>
  (mem_settle_queue.mp mem).2 k (mem_settle_queue.mp mem).1 rfl cancelled

theorem settle_labelsHeld (s : State) : s.settle.labelsHeld := fun l mem => by
  rw [settle_labels] at mem
  rw [settle_holdsLabel]
  exact (List.mem_filter.mp mem).2

theorem settle_port (s : State) (q : Port) :
    ∃ w, s.settle.port q = { s.port q with watch := w } ∧ ∀ x, w = some x → (s.port q).watch = some x := by
  unfold State.settle
  exact foldl_leaveQueue_port _ { s with labels := s.labels.filter (fun l => s.holdsLabel l.job l.copy) } q

theorem settle_reports (s : State) (q : Port) : (s.settle.port q).reports = (s.port q).reports := by
  obtain ⟨w, port, -⟩ := settle_port s q
  rw [port]

/-- A job with a label in flight is found as before (R72). -/
theorem settle_job? {s : State} {n : Nat} (flight : s.settle.jobInFlight n = true) : s.settle.job? n = s.job? n := by
  rw [State.job?, settle_queue, List.find?_filter]
  refine congrArg (List.find? · s.queue) (funext fun k => ?_)
  by_cases number : k.number = n
  · have stays : (s.queue.all fun j => !(j.cancelled && !s.settle.jobInFlight j.number) || k.number != j.number) = true := by
      rw [List.all_eq_true]
      intro j _
      by_cases same : j.number = n
      · simp [same, flight]
      · simp [number, Ne.symm same]
    simp only [stays, true_and, Bool.decide_eq_true]
  · simp [number]

/-- The record of a label still held is found as before (R99). -/
theorem settle_label? {s : State} {job copy : Nat} (held : s.holdsLabel job copy = true) :
    s.settle.label? job copy = s.label? job copy := by
  rw [State.label?, settle_labels, List.find?_filter]
  refine congrArg (List.find? · s.labels) (funext fun l => ?_)
  by_cases same : l.job = job ∧ l.copy = copy
  · obtain ⟨rfl, rfl⟩ := same
    simp [held]
  · rw [not_and_or] at same
    obtain other | other := same <;> simp [other]

theorem jobInFlight_of_label? {s : State} {job copy : Nat} {l : LabelRecord} (found : s.label? job copy = some l) :
    s.jobInFlight job = true := by
  have named := List.find?_some found
  simp only [Bool.and_eq_true, beq_iff_eq] at named
  exact (jobInFlight_iff s job).mpr (.inl ⟨l, List.mem_of_find?_eq_some found, named.1⟩)

/-! ### The relation -/

/-- From one state to the next the ring gives up FULL bands at most, the queue jobs, the ports watches and the labels in flight records,
and cancelled jobs go with their labels (R72, R74, R98, R113). -/
structure State.Yields (s t : State) : Prop where
  frame   : t = { s with ports := t.ports, queue := t.queue, ring := t.ring, labels := t.labels, engine := t.engine }
  fill    : t.ring.fill = s.ring.fill
  buffers : ∀ i, t.buffer i = s.buffer i ∨ (s.buffer i).state = .full ∧ (t.buffer i).state ≠ .full
  queue   : t.queue ⊆ s.queue
  labels  : ∀ l ∈ t.labels, ∃ k ∈ s.labels, k.job = l.job ∧ k.copy = l.copy
  watches : ∀ q w, (t.port q).watch = some w → (s.port q).watch = some w
  fly     : s.cancelledFly → t.cancelledFly

namespace State.Yields

theorem refl (s : State) : s.Yields s := ⟨rfl, rfl, fun _ => .inl rfl, fun _ => id, fun l mem => ⟨l, mem, rfl, rfl⟩, fun _ _ => id, id⟩

theorem trans {a b c : State} (h : a.Yields b) (k : b.Yields c) : a.Yields c where
  frame := by rw [k.frame, h.frame]
  fill := k.fill.trans h.fill
  buffers i := by
    obtain later | ⟨full, gone⟩ := k.buffers i
    · rw [later]
      exact h.buffers i
    · obtain same | ⟨-, none⟩ := h.buffers i
      · exact .inr ⟨same ▸ full, gone⟩
      · exact absurd full none
  queue := fun j mem => h.queue (k.queue mem)
  labels l mem := by
    obtain ⟨m, inner, job, copy⟩ := k.labels l mem
    obtain ⟨o, outer, job', copy'⟩ := h.labels m inner
    exact ⟨o, outer, job'.trans job, copy'.trans copy⟩
  watches q w watch := h.watches q w (k.watches q w watch)
  fly := k.fly ∘ h.fly

/-- The engine changed. -/
theorem onEngine (s : State) (f : Engine → Engine) : s.Yields (s.onEngine f) := { refl s with frame := rfl }

/-- The ring changed, its buffers but for FULL bands given up. -/
theorem of_ring {s : State} {ring : Ring} (fill : ring.fill = s.ring.fill)
    (buffers : ∀ i : Fin 8, ring.buffers[i] = s.buffer i ∨ (s.buffer i).state = .full ∧ (ring.buffers[i]).state ≠ .full) :
    s.Yields { s with ring := ring } :=
  { refl s with frame := rfl, fill := fill, buffers := buffers }

/-- A FULL band given up. -/
theorem onBuffer {s : State} {i : Fin 8} {f : Buffer → Buffer} (full : (s.buffer i).state = .full) (gone : (f (s.buffer i)).state ≠ .full) :
    s.Yields (s.onBuffer i f) :=
  of_ring rfl fun k => by
    by_cases same : i = k
    · subst same
      exact .inr ⟨full, by rwa [← buffer_onBuffer_self s i f] at gone⟩
    · exact .inl (buffer_onBuffer_ne s f same)

theorem advanceTake (s : State) : s.Yields s.advanceTake := of_ring rfl fun _ => .inl rfl

theorem advanceTakeIf (s : State) (now : Bool) : s.Yields (s.advanceTakeIf now) := of_ring rfl fun _ => .inl rfl

/-- Label records changed but for the labels they are of. -/
theorem onLabel {s : State} {f : LabelRecord → LabelRecord} (same : ∀ l, (f l).job = l.job ∧ (f l).copy = l.copy) (job copy : Nat) :
    s.Yields (s.onLabel job copy f) := by
  have names (l : LabelRecord) : (if l.job = job ∧ l.copy = copy then f l else l).job = l.job ∧
      (if l.job = job ∧ l.copy = copy then f l else l).copy = l.copy := by
    split
    · exact same l
    · exact ⟨rfl, rfl⟩
  refine { refl s with frame := rfl, labels := fun l mem => ?_, fly := fun fly k mem cancelled => ?_ }
  · obtain ⟨m, inner, rfl⟩ := List.mem_map.mp mem
    exact ⟨m, inner, (names m).1.symm, (names m).2.symm⟩
  · refine (jobInFlight_iff ..).mpr (((jobInFlight_iff ..).mp (fly k mem cancelled)).imp_left ?_)
    rintro ⟨l, inner, number⟩
    exact ⟨_, List.mem_map_of_mem inner, (names l).1.trans number⟩

theorem settle (s : State) : s.Yields s.settle where
  frame := by rw [settle_frame]
  fill := by simp
  buffers i := .inl (settle_buffer s i)
  queue := fun _ mem => (mem_settle_queue.mp mem).1
  labels l mem := by
    rw [settle_labels] at mem
    exact ⟨l, (List.mem_filter.mp mem).1, rfl, rfl⟩
  watches q w watch := by
    obtain ⟨x, port, old⟩ := settle_port s q
    rw [port] at watch
    exact old w watch
  fly _ := settle_cancelledFly s

end State.Yields

/-! ### The take position -/

theorem takeFull?_eq_some {s : State} {r : BandRecord} :
    s.takeFull? = some r ↔ (s.buffer s.ring.take).state = .full ∧ (s.buffer s.ring.take).record = some r := by
  simp [State.takeFull?]

theorem full_of_takeHas {s : State} {job copy y : Nat} (has : s.takeHas job copy y = true) : (s.buffer s.ring.take).state = .full := by
  cases found : s.takeFull? with
  | none => simp [State.takeHas, found] at has
  | some r => exact (takeFull?_eq_some.mp found).1

theorem yields_takeBand {s : State} (full : (s.buffer s.ring.take).state = .full) : s.Yields s.takeBand :=
  (State.Yields.onBuffer full (by simp)).trans (.advanceTake _)

theorem yields_takeDryBand {s : State} (full : (s.buffer s.ring.take).state = .full) : s.Yields s.takeDryBand :=
  (State.Yields.onBuffer full (by simp)).trans (.advanceTakeIf _ _)

theorem yields_skipBand {s : State} (full : (s.buffer s.ring.take).state = .full) : s.Yields s.skipBand :=
  (State.Yields.onBuffer full (by simp [Buffer.empty])).trans (.advanceTake _)

theorem yields_skipVoidFuel (m : Nat) (s : State) : s.Yields (skipVoidFuel m s) := by
  induction m generalizing s with
  | zero => exact .refl s
  | succ m ih =>
    unfold skipVoidFuel
    split
    next r found =>
      split
      · exact ((yields_skipBand (takeFull?_eq_some.mp found).1).trans (.settle _)).trans (ih _)
      · exact .refl s
    · exact .refl s

theorem yields_skipVoid (s : State) : s.Yields s.skipVoid := yields_skipVoidFuel 8 s

/-! ### The engine's look -/

theorem yields_outOfWork (s : State) : s.Yields s.outOfWork := by
  unfold State.outOfWork
  split <;> exact .onEngine s _

theorem yields_lookForWork (s : State) : s.Yields s.lookForWork := by
  refine (yields_skipVoid s).trans ?_
  unfold State.lookForWork
  dsimp only
  split
  · exact .onEngine _ _
  · exact yields_outOfWork _

theorem yields_startBlank (s : State) : s.Yields s.startBlank := by
  unfold State.startBlank
  split
  · exact .refl s
  · exact .onEngine s _

theorem yields_startBurn (s : State) (y : Nat) (bits : List Bool) : s.Yields (s.startBurn y bits) := by
  unfold State.startBurn
  split
  · exact .onEngine s _
  · exact .refl s

theorem yields_underrun (s : State) (h : HeadLabel) : s.Yields (s.underrun h) := by
  unfold State.underrun
  split
  · exact (State.Yields.onEngine s _).trans (yields_startBlank _)
  · refine (State.Yields.onLabel ?_ ..).trans (.onEngine _ _)
    exact fun _ => ⟨rfl, rfl⟩

theorem yields_startLabelLine (s : State) (h : HeadLabel) : s.Yields (s.startLabelLine h) := by
  unfold State.startLabelLine
  split
  · exact yields_startBlank s
  · extract_lets t
    have take : s.Yields t := by
      unfold t
      split
      next has => exact yields_takeBand (full_of_takeHas (Bool.and_eq_true_iff.mp has).2)
      · exact .refl s
    clear_value t
    refine take.trans ?_
    split
    · exact yields_startBlank t
    · split
      · split
        · exact yields_startBurn ..
        · exact .refl t
      · exact yields_underrun ..

theorem yields_beginAtHead (s : State) (start edge : Int) : s.Yields (s.beginAtHead start edge) := by
  unfold State.beginAtHead
  split
  · exact yields_startBlank s
  · exact (State.Yields.onEngine s _).trans (yields_startLabelLine _ _)

theorem yields_startMove (s : State) : s.Yields s.startMove := by
  unfold State.startMove
  split
  · exact .refl s
  · split
    · exact yields_beginAtHead ..
    · exact yields_startBlank s
  · split
    · exact yields_startLabelLine ..
    · exact yields_startBlank s
  · exact yields_startBlank s

theorem yields_goOn (s : State) : s.Yields s.goOn := (yields_lookForWork s).trans (yields_startMove _)

theorem yields_retract (s : State) : s.Yields s.retract := by
  unfold State.retract
  split
  · exact (State.Yields.onEngine s _).trans (yields_goOn _)
  · exact .onEngine s _

theorem yields_lookFromPresenting (s : State) : s.Yields s.lookFromPresenting := by
  unfold State.lookFromPresenting
  split
  · exact .refl s
  · refine (yields_skipVoid s).trans ?_
    dsimp only
    split
    · exact yields_retract _
    · exact .refl _

theorem yields_dryTakeFuel (m : Nat) (s : State) : s.Yields (dryTakeFuel m s) := by
  induction m generalizing s with
  | zero => exact .refl s
  | succ m ih =>
    unfold dryTakeFuel
    split
    · exact .refl s
    next r found =>
      have full := (takeFull?_eq_some.mp found).1
      split
      · exact ((yields_skipBand full).trans (.settle _)).trans (ih _)
      · exact (yields_takeDryBand full).trans (.onEngine _ _)

theorem yields_dryTake (s : State) : s.Yields s.dryTake := by
  unfold State.dryTake
  split
  · exact yields_dryTakeFuel 9 s
  · exact .refl s

theorem yields_engineLook (s : State) : s.Yields s.engineLook := by
  unfold State.engineLook
  split
  · exact yields_goOn s
  · split
    · split
      · exact (State.Yields.onEngine s _).trans (yields_startLabelLine _ _)
      · exact .refl s
    · exact .refl s
  · exact yields_lookFromPresenting s
  · exact yields_dryTake s
  · exact .refl s

/-! ### A label that ends VOIDED -/

/-- The label no longer in the records nor at the head (R73, R154). -/
def State.labelOff (s : State) (job copy : Nat) : State :=
  (s.dropLabel job copy).onEngine fun e => { e with heads := e.heads.filter (fun h => !(h.job == job && h.copy == copy)) }

/-- A label of a queued job that ends VOIDED is reported and taken off (R73, R75). -/
theorem endLabel_voided {s : State} {job copy : Nat} {j : Job} {l : LabelRecord} (queued : s.job? job = some j)
    (found : s.label? job copy = some l) (mismatch : Bool) :
    s.endLabel job copy .voided mismatch = ((s.placeCompletion (completionOf j l .voided mismatch)).labelOff job copy).settle := by
  simp only [State.endLabel, queued, found]
  rfl

theorem endLabel_unknown {s : State} {job copy : Nat} (unknown : s.job? job = none ∨ s.label? job copy = none) (o : LabelOutcome)
    (mismatch : Bool) : s.endLabel job copy o mismatch = s.labelOff job copy := by
  unfold State.endLabel
  split
  next queued found => simp [queued, found] at unknown
  next => rfl

/-- A port after a report is placed: its list may have the report more, and its watch is as it was (R76, R181). -/
theorem placeCompletion_watch (s : State) (c : Completion) (q : Port) : ((s.placeCompletion c).port q).watch = (s.port q).watch := by
  unfold State.placeCompletion
  refine foldl_keeps (fun s t => (t.port q).watch = (s.port q).watch) (fun _ => rfl) (fun h k => k.trans h) (fun s p => ?_) _ s
  split
  · by_cases same : p = q
    · subst same
      rw [port_onPort_self]
      unfold PortState.place
      split <;> rfl
    · rw [port_onPort_ne _ _ same]
  · rfl

theorem yields_placeCompletion (s : State) (c : Completion) : s.Yields (s.placeCompletion c) := by
  have frame := placeCompletion_frame s c
  have watch := placeCompletion_watch s c
  generalize s.placeCompletion c = t at frame watch ⊢
  rw [frame] at watch ⊢
  exact { State.Yields.refl s with frame := rfl, watches := fun q w h => (watch q).symm.trans h }

/-- A label taken off whose job is not queued, or which has no record (R99). -/
theorem yields_labelOff_unknown {s : State} {job copy : Nat} (unknown : s.job? job = none ∨ s.label? job copy = none) :
    s.Yields (s.labelOff job copy) := by
  refine { State.Yields.refl s with frame := rfl, labels := fun l mem => ?_, fly := fun fly k mem cancelled => ?_ }
  · exact ⟨l, (List.mem_filter.mp mem).1, rfl, rfl⟩
  · refine (jobInFlight_iff ..).mpr (((jobInFlight_iff ..).mp (fly k mem cancelled)).imp_left ?_)
    rintro ⟨l, inner, number⟩
    refine ⟨l, List.mem_filter.mpr ⟨inner, ?_⟩, number⟩
    obtain none | none := unknown
    · have other : k.number ≠ job := by simpa using List.find?_eq_none.mp none k mem
      simp [number, other]
    · simpa [imp_iff_not_or] using List.find?_eq_none.mp none l inner

theorem yields_endLabel_voided (s : State) (job copy : Nat) (mismatch : Bool) : s.Yields (s.endLabel job copy .voided mismatch) := by
  by_cases unknown : s.job? job = none ∨ s.label? job copy = none
  · rw [endLabel_unknown unknown]
    exact yields_labelOff_unknown unknown
  · push Not at unknown
    obtain ⟨j, queued⟩ := Option.ne_none_iff_exists'.mp unknown.1
    obtain ⟨l, found⟩ := Option.ne_none_iff_exists'.mp unknown.2
    rw [endLabel_voided queued found]
    generalize completionOf j l .voided mismatch = c
    refine (yields_placeCompletion s c).trans ?_
    generalize s.placeCompletion c = t
    exact { State.Yields.settle (t.labelOff job copy) with
      labels := fun l mem => by
        rw [settle_labels] at mem
        exact ⟨l, (List.mem_filter.mp (List.mem_filter.mp mem).1).1, rfl, rfl⟩
      frame := by rw [settle_frame]; rfl
      fly := fun _ => settle_cancelledFly _ }

/-! ### The engine's part in a cancel -/

theorem yields_dryCancel (s : State) (n : Nat) : s.Yields (s.dryCancel n) := by
  unfold State.dryCancel
  split
  · exact yields_dryTake s
  · split
    · exact .refl s
    · exact (yields_endLabel_voided ..).trans (yields_dryTake _)

theorem yields_cancelAtEngine (s : State) (n : Nat) : s.Yields (s.cancelAtEngine n) := by
  have look : s.Yields (if s.takeFull?.any (·.void) then s.lookForWork else s) := by
    split
    · exact yields_lookForWork s
    · exact .refl s
  have moves : s.Yields (match s.engine.task with
      | .seek | .approach .. => if s.takeFull?.any (·.void) then s.lookForWork else s
      | _ => s) := by
    split
    · exact look
    · exact look
    · exact .refl s
  unfold State.cancelAtEngine
  split
  · exact yields_dryCancel s n
  · exact moves
  · exact moves
  · exact yields_engineLook s

end Sys2Proof.Machine
end

section
/-! PROOFS. JOB-CANCEL: what a cancel in flight does to the ring, the composer, the redo list and the queue, then what the engine makes of it
in PAUSED, in search of a start and in DRY (O28). -/

namespace Sys2Proof.Machine

/-! ### The ring, the composer and the queue -/

/-- The composer drops a label of a job, and the band it was filling is freed (R112). -/
def State.handDropped (s : State) (n : Nat) : State :=
  if s.hand.any (fun h => h.job == n) then
    match s.filling? with
    | some i => { s with hand := none, ring := { (s.freeBuffer i).ring with fill := i } }
    | none => { s with hand := none }
  else s

/-- A FULL band of a job is VOID once the job is cancelled (R112). -/
def Buffer.voided (n : Nat) (b : Buffer) : Buffer :=
  if b.state = .full then { b with record := b.record.map (fun r => if r.job = n then { r with void := true } else r) } else b

/-- A job cancelled in flight has no hold and no timer left (R72). -/
def Job.inFlightCancelled (j : Job) : Job :=
  { j with operator := false, mergeTimeout := false, counterHold := none, timer := none, cancelled := true }

theorem handDropped_frame (s : State) (n : Nat) :
    s.handDropped n = { s with hand := (s.handDropped n).hand, ring := (s.handDropped n).ring } := by
  unfold State.handDropped
  split
  · split <;> rfl
  · rfl

/-- A cancel in flight, part by part (R72, R112). -/
theorem cancelInRing_eq (s : State) (n : Nat) : s.cancelInRing n = { s with
    hand := (s.handDropped n).hand
    ring := { (s.handDropped n).ring with buffers := mapVec (Buffer.voided n) (s.handDropped n).ring.buffers }
    redo := s.redo.filter (fun e => e.job != n)
    ports := mapVec (fun q => { q with watch := q.watch.filter (fun w => w.job != n) }) s.ports
    queue := (s.onJob n Job.inFlightCancelled).queue } := by
  have parts : s.cancelInRing n = { s.handDropped n with
      ring := { (s.handDropped n).ring with buffers := mapVec (Buffer.voided n) (s.handDropped n).ring.buffers }
      redo := (s.handDropped n).redo.filter (fun e => e.job != n)
      ports := mapVec (fun q => { q with watch := q.watch.filter (fun w => w.job != n) }) (s.handDropped n).ports
      queue := ((s.handDropped n).onJob n Job.inFlightCancelled).queue } := rfl
  rw [parts, handDropped_frame]
  rfl

theorem handDropped_other {s : State} {n : Nat} (other : ∀ h, s.hand = some h → h.job ≠ n) : s.handDropped n = s := by
  refine if_neg ?_
  cases hand : s.hand with
  | none => simp
  | some h => simpa using other h hand

theorem handDropped_idle {s : State} {n : Nat} {h : Hand} (hand : s.hand = some h) (job : h.job = n) (idle : s.filling? = none) :
    s.handDropped n = { s with hand := none } := by
  rw [State.handDropped, if_pos (by simp [hand, job])]
  simp only [idle]

theorem handDropped_filling {s : State} {n : Nat} {h : Hand} {i : Fin 8} (hand : s.hand = some h) (job : h.job = n)
    (fills : s.filling? = some i) : s.handDropped n = { s with hand := none, ring := { (s.freeBuffer i).ring with fill := i } } := by
  rw [State.handDropped, if_pos (by simp [hand, job])]
  simp only [fills]

/-- The composer holds no label of a job cancelled (R112). -/
theorem handDropped_hand (s : State) (n : Nat) {h : Hand} (hand : (s.handDropped n).hand = some h) : h.job ≠ n := by
  unfold State.handDropped at hand
  split at hand
  · split at hand <;> cases hand
  next other => exact fun job => other (by simp [hand, job])

theorem filling?_eq_none {s : State} : s.filling? = none ↔ ∀ i, (s.buffer i).state ≠ .filling := by
  simp [State.filling?]

theorem state_of_filling? {s : State} {i : Fin 8} (fills : s.filling? = some i) : (s.buffer i).state = .filling := by
  simpa using List.find?_some fills

theorem filling?_of_sole {s : State} {i : Fin 8} (fills : (s.buffer i).state = .filling)
    (sole : ∀ k, k ≠ i → (s.buffer k).state ≠ .filling) : s.filling? = some i := by
  cases found : s.filling? with
  | none => exact absurd fills (filling?_eq_none.mp found i)
  | some k =>
    by_contra other
    exact sole k (fun same => other (congrArg some same)) (state_of_filling? found)

/-- Where the composer drops its label a buffer stays as it was, or it was in the fill and is freed (R112). -/
theorem handDropped_buffer (s : State) (n : Nat) (i : Fin 8) : (s.handDropped n).buffer i = s.buffer i ∨
    (s.buffer i).state = .filling ∧ (s.handDropped n).buffer i = Buffer.empty := by
  unfold State.handDropped
  split
  · split
    next k fills =>
      by_cases same : k = i
      · subst same
        exact .inr ⟨state_of_filling? fills, buffer_onBuffer_self s k fun _ => Buffer.empty⟩
      · exact .inl (buffer_onBuffer_ne s (fun _ => Buffer.empty) same)
    next => exact .inl rfl
  · exact .inl rfl

theorem voided_state (n : Nat) (b : Buffer) : (b.voided n).state = b.state := by
  unfold Buffer.voided
  split <;> rfl

theorem voided_of_not_full {b : Buffer} (state : b.state ≠ .full) (n : Nat) : b.voided n = b := if_neg state

/-- A FULL band of a cancelled job is VOID (R112). -/
theorem voided_record {n : Nat} {b : Buffer} {r : BandRecord} (full : b.state = .full) (record : (b.voided n).record = some r)
    (job : r.job = n) : r.void = true := by
  rw [Buffer.voided, if_pos full] at record
  obtain ⟨old, -, rfl⟩ := Option.map_eq_some_iff.mp record
  by_cases same : old.job = n
  · rw [if_pos same]
  · rw [if_neg same] at job
    exact absurd job same

theorem cancelInRing_buffer (s : State) (n : Nat) (i : Fin 8) :
    (s.cancelInRing n).buffer i = ((s.handDropped n).buffer i).voided n := by
  rw [cancelInRing_eq]
  exact mapVec_getElem (Buffer.voided n) (s.handDropped n).ring.buffers i i.isLt

/-- A buffer's state after a cancel in flight: as it was, or FREE where the composer was filling it (R112). -/
theorem cancelInRing_state (s : State) (n : Nat) (i : Fin 8) : ((s.cancelInRing n).buffer i).state = (s.buffer i).state ∨
    (s.buffer i).state = .filling ∧ ((s.cancelInRing n).buffer i).state = .free := by
  rw [cancelInRing_buffer, voided_state]
  obtain same | ⟨fills, freed⟩ := handDropped_buffer s n i
  · exact .inl (by rw [same])
  · exact .inr ⟨fills, by rw [freed]; rfl⟩

theorem cancelInRing_not_burning {s : State} (none : ∀ i, (s.buffer i).state ≠ .burning) (n : Nat) (i : Fin 8) :
    ((s.cancelInRing n).buffer i).state ≠ .burning := by
  obtain same | ⟨-, free⟩ := cancelInRing_state s n i
  · rw [same]
    exact none i
  · simp [free]

theorem cancelInRing_full {s : State} {n : Nat} {i : Fin 8} (full : ((s.cancelInRing n).buffer i).state = .full) :
    (s.buffer i).state = .full := by
  obtain same | ⟨-, free⟩ := cancelInRing_state s n i
  · rw [← same]
    exact full
  · simp [free] at full

theorem cancelInRing_take (s : State) (n : Nat) : (s.cancelInRing n).ring.take = s.ring.take := by
  rw [cancelInRing_eq]
  show (s.handDropped n).ring.take = _
  unfold State.handDropped
  split
  · split <;> rfl
  · rfl

theorem cancelInRing_fill (s : State) (n : Nat) : (s.cancelInRing n).ring.fill = (s.handDropped n).ring.fill := by rw [cancelInRing_eq]

/-- The buffer the composer was filling for the cancelled job is freed, and the fill position is back at it (R112). -/
theorem cancelInRing_filling {s : State} {n : Nat} {h : Hand} {i : Fin 8} (hand : s.hand = some h) (job : h.job = n)
    (fills : s.filling? = some i) : (s.cancelInRing n).buffer i = Buffer.empty ∧ (s.cancelInRing n).ring.fill = i := by
  have dropped := handDropped_filling hand job fills
  have freed : (s.handDropped n).buffer i = Buffer.empty := by
    rw [dropped]
    exact buffer_onBuffer_self s i fun _ => Buffer.empty
  refine ⟨?_, by rw [cancelInRing_fill, dropped]⟩
  rw [cancelInRing_buffer, freed]
  exact voided_of_not_full (by simp [Buffer.empty]) n

/-- The band at the take position is of the cancelled job, and so VOID (R112). -/
theorem cancelInRing_takeFull? {s : State} {n : Nat} {r : BandRecord} (found : s.takeFull? = some r) (job : r.job = n) :
    (s.cancelInRing n).takeFull? = some { r with void := true } := by
  obtain ⟨full, record⟩ := takeFull?_eq_some.mp found
  have kept : (s.handDropped n).buffer s.ring.take = s.buffer s.ring.take := by
    obtain same | ⟨fills, -⟩ := handDropped_buffer s n s.ring.take
    · exact same
    · simp [full] at fills
  rw [takeFull?_eq_some, cancelInRing_take, cancelInRing_buffer, kept, Buffer.voided, if_pos full]
  exact ⟨full, by simp [record, job]⟩

/-! ### The job and its labels -/

theorem cancelInRing_engine (s : State) (n : Nat) : (s.cancelInRing n).engine = s.engine := by rw [cancelInRing_eq]
theorem cancelInRing_settings (s : State) (n : Nat) : (s.cancelInRing n).settings = s.settings := by rw [cancelInRing_eq]
theorem cancelInRing_label? (s : State) (n job copy : Nat) : (s.cancelInRing n).label? job copy = s.label? job copy := by
  rw [cancelInRing_eq]
  rfl

theorem cancelInRing_job? {s : State} {n : Nat} {j : Job} (found : s.job? n = some j) :
    (s.cancelInRing n).job? n = some j.inFlightCancelled := by
  rw [cancelInRing_eq]
  exact job?_onJob (f := Job.inFlightCancelled) (fun _ => rfl) found

/-- The jobs of a number cancelled carry the cancelled flag, no hold and no timer (R72). -/
theorem cancelInRing_queue {s : State} {n : Nat} {k : Job} (mem : k ∈ (s.cancelInRing n).queue) (number : k.number = n) :
    k.cancelled = true ∧ k.isHeld = false ∧ k.timer = none := by
  rw [cancelInRing_eq] at mem
  obtain ⟨i, -, rfl⟩ := List.mem_map.mp mem
  have same : i.number = n := by
    split at number <;> exact number
  rw [if_pos same]
  exact ⟨rfl, rfl, rfl⟩

theorem cancelInRing_watch {s : State} {n : Nat} {q : Port} {w : PositionWatch} (watch : ((s.cancelInRing n).port q).watch = some w) :
    w.job ≠ n := by
  rw [cancelInRing_eq] at watch
  have filtered : ((s.port q).watch.filter fun w => w.job != n) = some w := by
    rw [← watch]
    exact congrArg PortState.watch (port_mapPorts s (fun q => { q with watch := q.watch.filter (fun w => w.job != n) }) q).symm
  simpa using (Option.filter_eq_some_iff.mp filtered).2

/-- The state between the queue's and the engine's part in a cancel in flight (R72, R112). -/
def State.cancelSettled (s : State) (n : Nat) : State := (s.cancelInRing n).settle

theorem cancelSettled_engine (s : State) (n : Nat) : (s.cancelSettled n).engine = s.engine := by
  rw [State.cancelSettled, settle_engine, cancelInRing_engine]

/-- A label of a cancelled job at the head stays in flight, and its job queued (R72, R99). -/
theorem cancelSettled_atHead {s : State} {n : Nat} {j : Job} {h : HeadLabel} {l : LabelRecord} (queued : s.job? n = some j)
    (head : h ∈ s.engine.heads) (job : h.job = n) (found : s.label? n h.copy = some l) :
    (s.cancelSettled n).label? n h.copy = some l ∧ (s.cancelSettled n).job? n = some j.inFlightCancelled := by
  have held : (s.cancelInRing n).holdsLabel n h.copy = true := by
    have atHead : (s.cancelInRing n).atHead n h.copy = true := by
      rw [State.atHead, cancelInRing_engine, List.any_eq_true]
      exact ⟨h, head, by simp [job]⟩
    rw [State.holdsLabel, atHead, Bool.or_true]
  have label : (s.cancelSettled n).label? n h.copy = some l := by
    rw [State.cancelSettled, settle_label? held, cancelInRing_label?, found]
  refine ⟨label, ?_⟩
  rw [State.cancelSettled, settle_job? (jobInFlight_of_label? label), cancelInRing_job? queued]

/-! ### The engine PAUSED -/

theorem startBlank_engine {s : State} {r : RunSettings} (set : s.settings = some r) : s.startBlank.engine = { s.engine with
    line := some {
      period := max (minimumPeriod r.speed s.engine.hot) (rampFloor s.engine.prevPeriod), required := 0, burn := none, phases := [],
      strobe := .off, enabled := [] } } := by
  simp only [State.startBlank, set, linePeriod, Nat.zero_max]
  rfl

/-- The next line of a cancelled label is fed unburned (R145). -/
theorem startLabelLine_cancelled {s : State} {h : HeadLabel} {r : RunSettings} (cancelled : s.isCancelled h.job = true)
    (set : s.settings = some r) : (s.startLabelLine h).engine = s.startBlank.engine := by
  unfold State.startLabelLine
  split
  · rfl
  · extract_lets t
    have kept : t.engine = s.engine ∧ t.settings = s.settings ∧ t.isCancelled h.job = s.isCancelled h.job := by
      unfold t
      split <;> exact ⟨rfl, rfl, rfl⟩
    obtain ⟨engine, settings, flag⟩ := kept
    rw [if_pos (flag.trans cancelled), startBlank_engine (settings.trans set), startBlank_engine set, engine]

/-- A PAUSED label that is cancelled ends its wait (R143). -/
theorem engineLook_paused {s : State} {h : HeadLabel} {r : RunSettings} (paused : s.engine.mode = .paused)
    (head : s.burningLabel? = some h) (cancelled : s.isCancelled h.job = true) (set : s.settings = some r) :
    s.engineLook.engine = { s.engine with
      mode := .burning
      line := some {
        period := max (minimumPeriod r.speed s.engine.hot) (rampFloor s.engine.prevPeriod), required := 0, burn := none, phases := [],
        strobe := .off, enabled := [] } } := by
  have look : s.engineLook = (s.onEngine fun e => { e with mode := .burning }).startLabelLine h := by
    simp only [State.engineLook, paused, head, cancelled, Bool.true_or, if_true]
  rw [look, startLabelLine_cancelled (s := s.onEngine _) cancelled set, startBlank_engine (s := s.onEngine _) set]
  rfl

/-! ### The engine in search of a start -/

theorem take_ofNat_succ (take : Fin 8) (k : Nat) : take + 1 + Fin.ofNat 8 k = take + Fin.ofNat 8 (k + 1) := by
  ext
  simp only [Fin.val_add, Fin.ofNat]
  omega

theorem take_ofNat_zero (take : Fin 8) : take + Fin.ofNat 8 0 = take := add_zero take

/-- Some bands from the take position on freed in one run, the take position past them (R113). -/
def State.freedRun (s t : State) (k : Nat) : Prop :=
  t.ring.take = s.ring.take + Fin.ofNat 8 k ∧
    ∀ i, i < k → (s.buffer (s.ring.take + Fin.ofNat 8 i)).state = .full ∧ t.buffer (s.ring.take + Fin.ofNat 8 i) = Buffer.empty

/-- The engine's way is not barred: the FULL band at the take position, if any, is not VOID or is of a label at the head (R113). -/
def State.voidSkipped (s : State) : Prop := ∀ x, s.takeFull? = some x → x.void = false ∨ s.atHead x.job x.copy = true

theorem skipBand_buffer (s : State) (i : Fin 8) : s.skipBand.buffer i = if s.ring.take = i then Buffer.empty else s.buffer i := by
  split
  next same => exact same ▸ buffer_onBuffer_self s s.ring.take fun _ => Buffer.empty
  next other => exact buffer_onBuffer_ne s (fun _ => Buffer.empty) other

/-- A run of at most `m` bands freed, if any, which leaves the engine's way free unless the count ran out (R113). -/
def State.skipsTo (s t : State) (m : Nat) : Prop := ∃ k ≤ m, s.freedRun t k ∧ (k = 0 → t = s) ∧ (k < m → t.voidSkipped)

theorem skipsTo_self {s : State} (way : s.voidSkipped) (m : Nat) : s.skipsTo s m :=
  ⟨0, Nat.zero_le _, ⟨(take_ofNat_zero _).symm, by simp⟩, fun _ => rfl, fun _ => way⟩

theorem skipVoidFuel_run (m : Nat) (s : State) : s.skipsTo (skipVoidFuel m s) m := by
  induction m generalizing s with
  | zero => exact ⟨0, le_rfl, ⟨(take_ofNat_zero _).symm, by simp⟩, fun _ => rfl, by simp⟩
  | succ m ih =>
    unfold skipVoidFuel
    split
    next r found =>
      have full := (takeFull?_eq_some.mp found).1
      split
      next =>
        have take : s.skipBand.settle.ring.take = s.ring.take + 1 := by rw [settle_ring]; rfl
        have buffer (i : Fin 8) : s.skipBand.settle.buffer i = if s.ring.take = i then Buffer.empty else s.buffer i := by
          rw [settle_buffer, skipBand_buffer]
        obtain ⟨k, le, ⟨past, run⟩, -, stop⟩ := ih s.skipBand.settle
        refine ⟨k + 1, by omega, ⟨by rw [past, take, take_ofNat_succ], fun i lt => ?_⟩, by simp, fun lt => stop (by omega)⟩
        cases i with
        | zero =>
          rw [take_ofNat_zero]
          refine ⟨full, ?_⟩
          have empty := buffer s.ring.take
          rw [if_pos rfl] at empty
          obtain same | ⟨gone, -⟩ := (yields_skipVoidFuel m s.skipBand.settle).buffers s.ring.take
          · rw [same, empty]
          · rw [empty] at gone
            cases gone
        | succ i =>
          have freed := run i (by omega)
          rw [take, take_ofNat_succ, buffer] at freed
          split at freed
          · exact absurd freed.1 (by simp [Buffer.empty])
          · exact freed
      next stop =>
        refine skipsTo_self (fun x at_take => ?_) _
        obtain rfl := Option.some.inj (found.symm.trans at_take)
        simpa [imp_iff_not_or] using stop
    next none =>
      refine skipsTo_self (fun x at_take => ?_) _
      rw [none] at at_take
      cases at_take

/-- With eight buffers the count does not run out before the way is free (R113). -/
theorem skipVoid_run (s : State) : ∃ k ≤ 8, s.freedRun s.skipVoid k ∧ (k = 0 → s.skipVoid = s) ∧ s.skipVoid.voidSkipped := by
  obtain ⟨k, le, run, none, stop⟩ := skipVoidFuel_run 8 s
  refine ⟨k, le, run, none, ?_⟩
  by_cases all : k = 8
  · subst all
    obtain ⟨past, freed⟩ := run
    intro x at_take
    have empty := (freed 0 (by omega)).2
    have round : s.skipVoid.ring.take = s.ring.take + Fin.ofNat 8 0 := past
    rw [takeFull?_eq_some, round] at at_take
    have full := at_take.1
    rw [State.skipVoid, empty] at full
    cases full
  · exact stop (by omega)

theorem skipVoidFuel_labelsHeld (m : Nat) {s : State} (held : s.labelsHeld) : (skipVoidFuel m s).labelsHeld := by
  induction m generalizing s with
  | zero => exact held
  | succ m ih =>
    unfold skipVoidFuel
    split
    · split
      · exact ih (settle_labelsHeld _)
      · exact held
    · exact held

theorem chooseStart_kept (e : Engine) (offset : Int) : (e.chooseStart offset).hp = e.hp ∧ (e.chooseStart offset).heads = e.heads := by
  unfold Engine.chooseStart
  dsimp only
  split <;> exact ⟨rfl, rfl⟩

/-- The look for the next work skips VOID bands; the rest of it is the engine's, which neither moves nor takes leave of a label (R113). -/
theorem lookForWork_eq (s : State) : ∃ e : Engine, s.lookForWork = { s.skipVoid with engine := e } ∧ e.hp = s.engine.hp ∧
    e.heads = s.engine.heads := by
  have engine : s.skipVoid.engine = s.engine := by rw [skipVoid_frame]
  unfold State.lookForWork
  dsimp only
  split
  · obtain ⟨hp, heads⟩ := chooseStart_kept s.skipVoid.engine s.skipVoid.topOffset
    exact ⟨_, rfl, hp.trans (by rw [engine]), heads.trans (by rw [engine])⟩
  · unfold State.outOfWork
    split <;> refine ⟨_, rfl, ?_, ?_⟩ <;> rw [engine] <;> rfl

/-- What the look for the next work leaves when a VOID band of a label not at the head is at the take position (R113). -/
theorem lookForWork_void {s : State} {r : BandRecord} (found : s.takeFull? = some r) (void : r.void = true)
    (off : s.atHead r.job r.copy = false) (held : s.labelsHeld) :
    s.lookForWork.engine.hp = s.engine.hp ∧ s.lookForWork.voidSkipped ∧ (∃ k, 1 ≤ k ∧ k ≤ 8 ∧ s.freedRun s.lookForWork k) ∧
      s.lookForWork.labelsHeld := by
  have engine : s.skipVoid.engine = s.engine := by rw [skipVoid_frame]
  have heldAfter : s.skipVoid.labelsHeld := skipVoidFuel_labelsHeld 8 held
  obtain ⟨k, le, run, none, stop⟩ := skipVoid_run s
  obtain ⟨e, look, hp, heads⟩ := lookForWork_eq s
  have headsAfter : e.heads = s.skipVoid.engine.heads := by rw [heads, engine]
  have atHead (job copy : Nat) : State.atHead { s.skipVoid with engine := e } job copy = s.skipVoid.atHead job copy :=
    congrArg (fun l : List HeadLabel => l.any fun h => h.job == job && h.copy == copy) headsAfter
  have first : k ≠ 0 := by
    intro zero
    have barred := stop r (by rw [none zero, found])
    rw [none zero, void, off] at barred
    simp at barred
  rw [look]
  refine ⟨hp, fun x at_take => ?_, ⟨k, by omega, le, run⟩, fun l mem => ?_⟩
  · rw [atHead]
    exact stop x at_take
  · rw [← heldAfter l mem]
    simp only [State.holdsLabel, atHead]
    rfl

/-! ### The engine in DRY -/

theorem burning?_eq_none {s : State} : s.burning? = none ↔ ∀ i, (s.buffer i).state ≠ .burning := by
  simp [State.burning?]

/-- A completion report offered to one port: its origin takes it, and any other port whose watch matches (R76, R181). -/
def State.placeAt (c : Completion) (s : State) (p : Port) : State :=
  if p = c.origin || (s.port p).settings.wants c.key then s.onPort p (·.place (.completion c)) else s

/-- Whether a completion report is the last on its origin port's list. -/
def State.lastAtOrigin (s : State) (c : Completion) : Prop := (s.port c.origin).reports.getLast? = some (.completion c)

theorem placeAt_origin (s : State) (c : Completion) : (State.placeAt c s c.origin).lastAtOrigin c := by
  rw [State.placeAt, if_pos (by simp), State.lastAtOrigin, port_onPort_self]
  exact place_getLast ..

theorem placeAt_last {s : State} {c : Completion} (last : s.lastAtOrigin c) (p : Port) : (State.placeAt c s p).lastAtOrigin c := by
  by_cases same : p = c.origin
  · rw [same]
    exact placeAt_origin s c
  · unfold State.placeAt
    split
    · rw [State.lastAtOrigin, port_onPort_ne _ _ same]
      exact last
    · exact last

theorem foldl_placeAt_last {c : Completion} (l : List Port) (s : State) (once : c.origin ∈ l ∨ s.lastAtOrigin c) :
    (l.foldl (State.placeAt c) s).lastAtOrigin c := by
  induction l generalizing s with
  | nil => simpa using once
  | cons p l ih =>
    refine ih _ ?_
    obtain mem | last := once
    · obtain same | later := List.mem_cons.mp mem
      · exact .inr (same ▸ placeAt_origin s c)
      · exact .inl later
    · exact .inr (placeAt_last last p)

/-- A completion report placed is the last on its origin port's list (R76, R179). -/
theorem placeCompletion_last (s : State) (c : Completion) : (s.placeCompletion c).lastAtOrigin c :=
  foldl_placeAt_last (List.finRange 4) s (.inl (List.mem_finRange _))

theorem dryTakeFuel_reports (m : Nat) (s : State) (q : Port) : ((dryTakeFuel m s).port q).reports = (s.port q).reports := by
  induction m generalizing s with
  | zero => rfl
  | succ m ih =>
    unfold dryTakeFuel
    split
    · rfl
    · split
      · rw [ih, settle_reports]
        rfl
      · rfl

theorem dryTake_reports (s : State) (q : Port) : (s.dryTake.port q).reports = (s.port q).reports := by
  unfold State.dryTake
  split
  · exact dryTakeFuel_reports 9 s q
  · rfl

theorem label?_eq_none {s : State} {job copy : Nat} : s.label? job copy = none ↔ ∀ l ∈ s.labels, ¬ (l.job = job ∧ l.copy = copy) := by
  simp [State.label?]

/-- A label in DRY with no band in consumption ends VOIDED at the cancel, its report the last on its origin port's list (R159). -/
theorem dryCancel_atHead {s : State} {n : Nat} {h : HeadLabel} {j : Job} {l : LabelRecord} (heads : s.engine.heads = [h]) (job : h.job = n)
    (idle : ∀ i, (s.buffer i).state ≠ .burning) (queued : s.job? n = some j) (found : s.label? n h.copy = some l) :
    (s.dryCancel n).label? n h.copy = none ∧
      ((s.dryCancel n).port j.origin).reports.getLast? = some (.completion (completionOf j l .voided false)) := by
  have ends : s.dryCancel n = (s.endLabel n h.copy .voided false).dryTake := by
    simp only [State.dryCancel, heads, job, List.find?_cons, beq_self_eq_true, burning?_eq_none.mpr idle, Option.any_none,
      Bool.false_eq_true, if_false]
  rw [ends]
  constructor
  · rw [label?_eq_none]
    intro x mem same
    obtain ⟨y, inner, job', copy'⟩ := (yields_dryTake _).labels x mem
    have left := (List.mem_filter.mp ((endLabel_labels ..).subset inner)).2
    simp [job', copy', same] at left
  · rw [dryTake_reports, endLabel_voided queued found, settle_reports]
    exact placeCompletion_last s (completionOf j l .voided false)

/-! ### A cancel in flight, as a whole -/

/-- The state a cancel in flight gives (R72, R112). -/
def State.cancelledInFlight (s : State) (n : Nat) : State := (s.cancelSettled n).cancelAtEngine n

theorem cancelInRing_yields (s : State) (n : Nat) : (s.cancelInRing n).Yields (s.cancelledInFlight n) :=
  (State.Yields.settle _).trans (yields_cancelAtEngine ..)

/-- A cancel in flight touches the queue, the redo list, the ring, the composer, the labels in flight, the engine and the ports (R72). -/
theorem cancelledInFlight_frame (s : State) (n : Nat) : s.cancelledInFlight n = { s with
    queue := (s.cancelledInFlight n).queue, redo := (s.cancelledInFlight n).redo, ring := (s.cancelledInFlight n).ring
    hand := (s.cancelledInFlight n).hand, labels := (s.cancelledInFlight n).labels, engine := (s.cancelledInFlight n).engine
    ports := (s.cancelledInFlight n).ports } := by
  rw [(cancelInRing_yields s n).frame, cancelInRing_eq]

theorem cancelledInFlight_redo (s : State) (n : Nat) : (s.cancelledInFlight n).redo = s.redo.filter (fun e => e.job != n) := by
  rw [(cancelInRing_yields s n).frame, cancelInRing_eq]

theorem cancelledInFlight_hand (s : State) (n : Nat) : (s.cancelledInFlight n).hand = (s.handDropped n).hand := by
  rw [(cancelInRing_yields s n).frame, cancelInRing_eq]

theorem cancelledInFlight_fill (s : State) (n : Nat) : (s.cancelledInFlight n).ring.fill = (s.handDropped n).ring.fill := by
  rw [(cancelInRing_yields s n).fill, cancelInRing_fill]

/-- The cancelled job, where it stays: without hold and timer, and with a label in flight (R72). -/
theorem cancelledInFlight_job {s : State} {n : Nat} {k : Job} (found : (s.cancelledInFlight n).job? n = some k) :
    k.cancelled = true ∧ k.isHeld = false ∧ k.timer = none ∧ (s.cancelledInFlight n).jobInFlight n = true := by
  have mem := List.mem_of_find?_eq_some found
  obtain ⟨cancelled, free, idle⟩ := cancelInRing_queue ((cancelInRing_yields s n).queue mem) (job?_number found)
  have flies := (yields_cancelAtEngine (s.cancelSettled n) n).fly (settle_cancelledFly _) k mem cancelled
  rw [job?_number found] at flies
  exact ⟨cancelled, free, idle, flies⟩

/-- A label of the cancelled job leaves the composer, and the fill position stays or is back at the freed buffer (R112). -/
theorem cancelledInFlight_ofHand {s : State} {n : Nat} {h : Hand} (hand : s.hand = some h) (job : h.job = n) :
    (s.cancelledInFlight n).hand = none ∧
    ((∀ i, (s.buffer i).state ≠ .filling) → (s.cancelledInFlight n).ring.fill = s.ring.fill) ∧
    ∀ i, (s.buffer i).state = .filling → (∀ k, k ≠ i → (s.buffer k).state ≠ .filling) →
      (s.cancelledInFlight n).buffer i = Buffer.empty ∧ (s.cancelledInFlight n).ring.fill = i := by
  refine ⟨?_, fun idle => ?_, fun i fills sole => ?_⟩
  · rw [cancelledInFlight_hand]
    cases fills : s.filling? with
    | none => rw [handDropped_idle hand job fills]
    | some i => rw [handDropped_filling hand job fills]
  · rw [cancelledInFlight_fill, handDropped_idle hand job (filling?_eq_none.mpr idle)]
  · obtain ⟨freed, back⟩ := cancelInRing_filling hand job (filling?_of_sole fills sole)
    refine ⟨?_, (cancelInRing_yields s n).fill.trans back⟩
    obtain same | ⟨full, -⟩ := (cancelInRing_yields s n).buffers i
    · rw [same, freed]
    · rw [freed] at full
      cases full

/-- Every FULL band of the cancelled job is VOID (R112). -/
theorem cancelledInFlight_void {s : State} {n : Nat} {i : Fin 8} {r : BandRecord}
    (full : ((s.cancelledInFlight n).buffer i).state = .full) (record : ((s.cancelledInFlight n).buffer i).record = some r)
    (job : r.job = n) : r.void = true := by
  obtain same | ⟨-, gone⟩ := (cancelInRing_yields s n).buffers i
  · rw [same, cancelInRing_buffer] at full record
    rw [voided_state] at full
    exact voided_record full record job
  · exact absurd full gone

/-- A PAUSED label of the cancelled job ends its wait: the waiting line is fed unburned (R143). -/
theorem cancelledInFlight_paused {s : State} {n : Nat} {j : Job} {h : HeadLabel} {r : RunSettings} (queued : s.job? n = some j)
    (paused : s.engine.mode = .paused) (head : s.engine.heads.find? (fun x => !x.out) = some h) (job : h.job = n)
    (label : s.label? n h.copy ≠ none) (set : s.settings = some r) :
    ∃ m : Line, (s.cancelledInFlight n).engine = { s.engine with mode := .burning, line := some m } ∧ m.burn = none ∧
      m.period = max (minimumPeriod r.speed s.engine.hot) (rampFloor s.engine.prevPeriod) := by
  obtain ⟨l, found⟩ := Option.ne_none_iff_exists'.mp label
  obtain ⟨-, stays⟩ := cancelSettled_atHead queued (List.mem_of_find?_eq_some head) job found
  have engine := cancelSettled_engine s n
  have looks : s.cancelledInFlight n = (s.cancelSettled n).engineLook := by
    simp only [State.cancelledInFlight, State.cancelAtEngine, engine, paused]
  have flag : (s.cancelSettled n).isCancelled h.job = true := by
    rw [State.isCancelled, job, stays]
    rfl
  have settings : (s.cancelSettled n).settings = some r := by
    rw [State.cancelSettled, settle_settings, cancelInRing_settings, set]
  have look := engineLook_paused (by rw [engine, paused]) (by rw [State.burningLabel?, engine, head]) flag settings
  rw [engine] at look
  exact ⟨_, by rw [looks, look], rfl, rfl⟩

/-- In search of a start for a band of the cancelled job the engine frees the VOID bands at the take position in one run (R113). -/
theorem cancelledInFlight_search {s : State} {n : Nat} {r : BandRecord} (mode : s.engine.mode = .registering ∨ s.engine.mode = .burning)
    (task : s.engine.task = .seek ∨ ∃ a b, s.engine.task = .approach a b) (found : s.takeFull? = some r) (job : r.job = n)
    (off : s.atHead r.job r.copy = false) :
    (s.cancelledInFlight n).engine.hp = s.engine.hp ∧ (s.cancelledInFlight n).voidSkipped ∧
      (∃ k, 1 ≤ k ∧ k ≤ 8 ∧ s.freedRun (s.cancelledInFlight n) k) ∧ (s.cancelledInFlight n).labelsHeld := by
  have engine := cancelSettled_engine s n
  have take : (s.cancelSettled n).takeFull? = some { r with void := true } := by
    rw [State.cancelSettled, settle_takeFull?, cancelInRing_takeFull? found job]
  have looks : s.cancelledInFlight n = (s.cancelSettled n).lookForWork := by
    obtain mode | mode := mode <;> obtain task | ⟨a, b, task⟩ := task <;>
      simp only [State.cancelledInFlight, State.cancelAtEngine, engine, mode, task, take, Option.any_some, if_true]
  have atHead : (s.cancelSettled n).atHead r.job r.copy = false := by
    rw [State.atHead, engine]
    exact off
  obtain ⟨hp, skipped, ⟨k, lo, hi, past, run⟩, held⟩ := lookForWork_void take rfl atHead (settle_labelsHeld _)
  have start : (s.cancelSettled n).ring.take = s.ring.take := by
    rw [State.cancelSettled, settle_ring, cancelInRing_take]
  rw [start] at past run
  rw [looks]
  refine ⟨by rw [hp, engine], skipped, ⟨k, lo, hi, past, fun i lt => ⟨?_, (run i lt).2⟩⟩, held⟩
  have full := (run i lt).1
  rw [State.cancelSettled, settle_buffer] at full
  exact cancelInRing_full full

/-- In DRY with no band in consumption the label of the cancelled job at the head ends VOIDED, with its report (R159). -/
theorem cancelledInFlight_dry {s : State} {n : Nat} {j : Job} {h : HeadLabel} {l : LabelRecord} (queued : s.job? n = some j)
    (dry : s.engine.mode = .dry) (heads : s.engine.heads = [h]) (job : h.job = n) (idle : ∀ i, (s.buffer i).state ≠ .burning)
    (found : s.label? n h.copy = some l) :
    (s.cancelledInFlight n).label? n h.copy = none ∧ ((s.cancelledInFlight n).port j.origin).reports.getLast? =
      some (.completion (completionOf j.inFlightCancelled l .voided false)) := by
  have engine := cancelSettled_engine s n
  obtain ⟨label, stays⟩ := cancelSettled_atHead queued (by simp [heads]) job found
  have cancels : s.cancelledInFlight n = (s.cancelSettled n).dryCancel n := by
    simp only [State.cancelledInFlight, State.cancelAtEngine, engine, dry]
  have still (i : Fin 8) : ((s.cancelSettled n).buffer i).state ≠ .burning := by
    rw [State.cancelSettled, settle_buffer]
    exact cancelInRing_not_burning idle n i
  rw [cancels]
  exact dryCancel_atHead (j := j.inFlightCancelled) (by rw [engine, heads]) job still stays label

/-! ### JOB-CANCEL -/

theorem exec_jobCancel {s : State} {p : Port} {n : Nat} (can : s.canTake p Kind.jobCancel.byte (byte2 n)) (hi : n ≤ 4095) :
    exec (.jobCancel p (byte2 n)) s = .next ((s.taken p).takeJobCancel p n) :=
  record_of_parsed (act := fun n s => s.takeJobCancel p n) can (parseNumber_byte2 (by omega))

/-- JOB-CANCEL of a job of the sender not yet cancelled (R71, R72). -/
theorem takeJobCancel_own {s : State} {n : Nat} (lo : 1 ≤ n) (hi : n ≤ 4095) {j : Job} (found : s.job? n = some j)
    (active : j.cancelled = false) : s.takeJobCancel j.origin n =
      (if j.composed = 0 then s.leaveQueue n else s.cancelledInFlight n).accept j.origin .jobCancel [] := by
  have own : s.ownJob j.origin n = .ok j := (ownJob_of_found lo hi found j.origin).trans (if_neg (by simp))
  simp only [State.takeJobCancel, own, active, State.cancelJob, job?_number found]
  rfl

/-- Settles O28: out at once with nothing composed; else in flight, clause by clause. -/
theorem cancelTakesTheJobOut : Obligations.CancelTakesTheJobOut := by
  rintro s p n j can lo hi found rfl active
  rw [exec_jobCancel can hi, takeJobCancel_own (s := s.taken j.origin) lo hi found active]
  refine ⟨fun fresh => by rw [if_pos fresh], fun started => ⟨(s.taken j.origin).cancelledInFlight n, by rw [if_neg (by omega)],
    fun k => cancelledInFlight_job, cancelledInFlight_redo .., fun h hand => ?_, fun other => ?_, fun h hand job => ?_,
    fun h r paused head job label set => ?_, fun i r => cancelledInFlight_void, fun q w watch => ?_,
    fun r mode task take job off => ?_, fun h l dry heads job idle label => ?_, cancelledInFlight_frame ..⟩⟩
  · exact handDropped_hand _ n ((cancelledInFlight_hand ..).symm.trans hand)
  · rw [cancelledInFlight_hand, cancelledInFlight_fill, handDropped_other (s := s.taken j.origin) other]
    exact ⟨rfl, rfl⟩
  · exact cancelledInFlight_ofHand (s := s.taken j.origin) hand job
  · exact cancelledInFlight_paused (s := s.taken j.origin) found paused head job label set
  · exact cancelInRing_watch ((cancelInRing_yields ..).watches q w watch)
  · exact cancelledInFlight_search (s := s.taken j.origin) mode task take job off
  · obtain ⟨gone, report⟩ := cancelledInFlight_dry (s := s.taken j.origin) found dry heads job idle label
    refine ⟨gone, _, report, (job?_number found : j.number = n), ?_, rfl, rfl, rfl⟩
    have named := List.find?_some label
    simp only [Bool.and_eq_true, beq_iff_eq] at named
    exact named.2

end Sys2Proof.Machine
end

section
/-! PROOFS. CONTRIB-REFUSED at the ports of pool entries that are gone, and the pool's ageing and discards (O33). -/

namespace Sys2Proof.Machine

/-! ### CONTRIB-REFUSED -/

/-- An event posted to every port of a list that is wanted: each such port has it once, any other is left. -/
theorem foldl_post_port {l : List Port} (once : l.Nodup) (wanted : Port → Bool) (e : Event) (s : State) (q : Port) :
    (l.foldl (fun s p => if wanted p then s.post p e else s) s).port q =
      if q ∈ l ∧ wanted q = true then (s.port q).post e else s.port q := by
  induction l generalizing s with
  | nil => simp
  | cons p l ih =>
    obtain ⟨new, once⟩ := List.nodup_cons.mp once
    rw [List.foldl_cons, ih once]
    by_cases same : p = q
    · subst same
      by_cases want : wanted p = true <;> simp [new, want, State.post]
    · have left : (if wanted p then s.post p e else s).port q = s.port q := by
        split
        · exact port_onPort_ne _ _ same
        · rfl
      simp [left, Ne.symm same]

/-- The ports of the entries that are gone get CONTRIB-REFUSED, any other is left (R85, R86). -/
theorem refuseContribs_port (s : State) (gone : List PoolEntry) (q : Port) :
    (s.refuseContribs gone).port q = if ∃ e ∈ gone, e.port = q then (s.port q).post .contribRefused else s.port q := by
  rw [State.refuseContribs, foldl_post_port (List.nodup_finRange 4) fun p => gone.any fun e => e.port == p]
  simp

/-- What is pending at a port that gets CONTRIB-REFUSED under a condition. -/
theorem isIn_of_refused {a b : PortState} {gone : Prop} [Decidable gone] (port : b = if gone then a.post .contribRefused else a)
    (e : Event) : e.isIn b.pending = true ↔ e.isIn a.pending = true ∨ e = .contribRefused ∧ gone := by
  subst port
  split
  next yes => simp [isIn_post, yes]
  next no => simp [no]

/-! ### Entries taken out of the pool -/

/-- Entries taken out of the pool: their ports get CONTRIB-REFUSED, any other is left (R85). -/
theorem dropEntries_port (s : State) (out : PoolEntry → Bool) (q : Port) :
    (s.dropEntries out).port q =
      if ∃ e ∈ s.pool, out e = true ∧ e.port = q then (s.port q).post .contribRefused else s.port q := by
  unfold State.dropEntries
  rw [refuseContribs_port]
  simp only [List.mem_filter, and_assoc]
  rfl

theorem dropEntries_pool (s : State) (out : PoolEntry → Bool) : (s.dropEntries out).pool = s.pool.filter fun e => !out e := by
  rw [dropEntries_frame]

theorem dropEntries_queue (s : State) (out : PoolEntry → Bool) : (s.dropEntries out).queue = s.queue := by
  rw [dropEntries_frame]

theorem dropEntries_of_none {s : State} {out : PoolEntry → Bool} (none : ∀ e ∈ s.pool, out e = false) : s.dropEntries out = s := by
  have gone : s.pool.filter out = [] := List.filter_eq_nil_iff.mpr fun e mem => by simp [none e mem]
  have rest : s.pool.filter (fun e => !out e) = s.pool := List.filter_eq_self.mpr fun e mem => by simp [none e mem]
  rw [State.dropEntries, gone, rest]
  simp [State.refuseContribs]

/-- The value of an entry taken out of the pool is free (R60, R85). -/
theorem dropEntries_valuesUsed {s : State} {out : PoolEntry → Bool} {e : PoolEntry} (mem : e ∈ s.pool) (gone : out e = true) :
    (s.dropEntries out).valuesUsed + e.value.length ≤ s.valuesUsed := by
  have split := ((List.filter_append_perm out s.pool).map fun e => e.value.length).sum_eq
  have one : e.value.length ≤ ((s.pool.filter out).map fun e => e.value.length).sum :=
    List.le_sum_of_mem (List.mem_map_of_mem (List.mem_filter.mpr ⟨mem, gone⟩))
  rw [List.map_append, List.sum_append] at split
  rw [State.valuesUsed, State.valuesUsed, dropEntries_pool, dropEntries_queue]
  omega

/-! ### Seconds and discards -/

/-- The ports of the entries that reach 30 s get CONTRIB-REFUSED, any other is left (R85). -/
theorem poolSecond_port (s : State) (q : Port) :
    s.poolSecond.port q =
      if ∃ x ∈ s.pool, x.port = q ∧ 29 ≤ x.age then (s.port q).post .contribRefused else s.port q := by
  unfold State.poolSecond
  rw [dropEntries_port]
  refine if_congr ?_ rfl rfl
  simp [and_comm]

/-- The step of a running part with no command waiting is a second for the pool (R85). -/
theorem step_of_idle {s : State} (idle : s.pending = []) (runs : s.held = false) : step s = .next s.poolSecond := by
  simp [step, idle, State.idle, runs]

theorem name_eq_iff {e : PoolEntry} {key : Text} {p : Port} {field : Nat} :
    e.name = (key, p, field) ↔ e.key = key ∧ e.port = p ∧ e.field = field := by
  simp [PoolEntry.name]

theorem isFor_eq_true {e : PoolEntry} {key : Text} {p : Port} {field : Nat} :
    e.isFor key p field = true ↔ e.key = key ∧ e.port = p ∧ e.field = field := (isFor_iff ..).trans name_eq_iff

theorem exec_poolEntryDiscard {s : State} (runs : s.held = false) (key : Text) (p : Port) (field : Nat) :
    exec (.poolEntryDiscard key p field) s = .next (s.dropEntries (·.isFor key p field)) :=
  running_of_not_held runs (·.discardEntry key p field)

/-- Settles O33: a second ages every entry and drops those at 30 s; a discard drops the entry it names. -/
theorem poolEntriesAgeAndAreDiscarded : Obligations.PoolEntriesAgeAndAreDiscarded := by
  refine ⟨fun s idle runs => ?_, fun s key p field runs none => ?_, fun s e runs mem => ?_⟩
  · refine ⟨s.poolSecond, step_of_idle idle runs, by rw [poolSecond_frame], fun q e => isIn_of_refused (poolSecond_port s q) e,
      fun q young => ?_, by rw [poolSecond_frame]⟩
    rw [poolSecond_port, if_neg]
    rintro ⟨x, mem, port, old⟩
    exact absurd (young x mem port) (by omega)
  · rw [exec_poolEntryDiscard runs, dropEntries_of_none]
    exact fun e mem => Bool.eq_false_iff.mpr fun named => none e mem (isFor_eq_true.mp named)
  · have named : e.isFor e.key e.port e.field = true := isFor_eq_true.mpr ⟨rfl, rfl, rfl⟩
    refine ⟨_, exec_poolEntryDiscard runs .., fun x => ?_, dropEntries_valuesUsed mem named, ?_, fun q other => ?_,
      by rw [dropEntries_frame]⟩
    · rw [dropEntries_pool, List.mem_filter, ← isFor_eq_true, Bool.not_eq_true']
      simp
    · exact (isIn_of_refused (dropEntries_port ..) _).mpr (.inr ⟨rfl, e, mem, named, rfl⟩)
    · rw [dropEntries_port, if_neg]
      rintro ⟨x, -, same, port⟩
      exact other (port.symm.trans (isFor_eq_true.mp same).2.1)

end Sys2Proof.Machine
end

section
/-! PROOFS. The sweep of the pool for a job, and a JOB-OPEN that takes the pool entries of its key (O24). -/

namespace Sys2Proof.Machine

/-! ### The sweep -/

/-- A form admits a pool entry where it has a CONTRIB field for its number and port (R79, R86). -/
theorem admits_iff {f : Form} {e : PoolEntry} : f.admits e = true ↔ ∃ x ∈ f.fields, x.number = e.field ∧ x.source = .contrib e.port := by
  simp [Form.admits, Form.contribField?]

theorem mem_moved {s : State} {f : Form} {key : Text} {c : Contribution} : c ∈ s.moved f key ↔
    ∃ e ∈ s.pool, (e.key = key ∧ f.admits e = true) ∧ c = { field := e.field, port := e.port, value := e.value } := by
  simp only [State.moved, List.mem_map, List.mem_filter, beq_iff_eq, and_assoc, @eq_comm _ c]

/-- The job with its wait for contributions ended where no required one is missing (R82). -/
def State.merged (s : State) (j : Job) : Job := if (s.missing j).isEmpty then { j with timer := none, mergeTimeout := false } else j

theorem mergeFilled_eq (s : State) (n : Nat) : s.mergeFilled n = s.onJob n s.merged := rfl

/-- The end of a wait touches the timer and MERGE-TIMEOUT alone (R82). -/
theorem merged_frame (s : State) (j : Job) :
    s.merged j = { j with timer := (s.merged j).timer, mergeTimeout := (s.merged j).mergeTimeout } := by
  unfold State.merged
  split <;> rfl

@[simp] theorem merged_number (s : State) (j : Job) : (s.merged j).number = j.number := by rw [merged_frame]
@[simp] theorem merged_contribs (s : State) (j : Job) : (s.merged j).contribs = j.contribs := by rw [merged_frame]
@[simp] theorem merged_marks (s : State) (j : Job) : (s.merged j).marks = j.marks := by rw [merged_frame]

/-- A sweep touches the queue, the pool and the ports (R86). -/
theorem sweepPool_frame (s : State) (n : Nat) (f : Form) (key : Text) :
    s.sweepPool n f key = { s with
      queue := (s.sweepPool n f key).queue, pool := s.pool.filter (fun e => e.key != key), ports := (s.sweepPool n f key).ports } := by
  rw [sweepPool_eq, mergeFilled_eq, refuseContribs_frame]
  rfl

/-- A sweep leaves every port but those of the entries the form does not admit, which get CONTRIB-REFUSED (R86). -/
theorem sweepPool_port (s : State) (n : Nat) (f : Form) (key : Text) (q : Port) :
    (s.sweepPool n f key).port q = if ∃ e ∈ s.pool, e.key = key ∧ e.port = q ∧ f.admits e = false
      then (s.port q).post .contribRefused else s.port q := by
  rw [sweepPool_eq]
  refine (refuseContribs_port _ _ q).trans (if_congr ?_ rfl rfl)
  simp only [List.mem_filter, beq_iff_eq, Bool.not_eq_true']
  exact exists_congr fun e => by tauto

/-- The job swept for has the contributions it had and those moved from the pool (R86). -/
theorem sweepPool_job? {s : State} {n : Nat} {j : Job} (found : s.job? n = some j) (f : Form) (key : Text) :
    ∃ k, (s.sweepPool n f key).job? n = some k ∧ k.contribs = j.contribs ++ s.moved f key := by
  have given : ({ s with pool := s.pool.filter (fun e => e.key != key) } : State).job? n = some j := found
  have swept := job?_onJob (f := fun j => { j with contribs := j.contribs ++ s.moved f key }) (fun _ => rfl) given
  rw [sweepPool_eq, refuseContribs_frame, mergeFilled_eq]
  exact ⟨_, job?_onJob (merged_number _) swept, merged_contribs ..⟩

/-! ### JOB-OPEN with a key -/

/-- A job just placed is the one found by its number (R57, R59). -/
theorem job?_jobPlaced {s : State} {j : Job} (free : ∀ k ∈ s.queue, k.number ≠ j.number) (p : Port) :
    (s.jobPlaced p j).job? j.number = some j := by
  have others {l : List Job} (sub : l ⊆ s.queue) : l.find? (fun k => k.number == j.number) = none :=
    List.find?_eq_none.mpr fun k mem => by simpa using free k (sub mem)
  show (placeJob j s.queue).find? _ = _
  unfold placeJob
  split
  · simp [others (List.Subset.refl _)]
  · simp [others (List.take_subset ..)]

/-- The placing of a job ends the port's discard state and leaves what is pending (R63). -/
theorem jobPlaced_pending (s : State) (p q : Port) (j : Job) : ((s.jobPlaced p j).port q).pending = (s.port q).pending := by
  by_cases same : p = q
  · rw [State.jobPlaced, same, port_onPort_self]
    rfl
  · rw [State.jobPlaced, port_onPort_ne _ _ same]
    rfl

theorem openJob_of_key {s : State} {p : Port} {r : JobOpen} {f : Form} {key : Text} (keyed : r.key = some key) :
    s.openJob p r f = (s.jobPlaced p (r.job s.nextFreeNumber p)).sweepPool s.nextFreeNumber f key := by
  simp only [State.openJob, keyed]
  rfl

/-- A JOB-OPEN within its ranges that no check refuses opens its job (R58). -/
theorem exec_jobOpen_accepted {s : State} {p : Port} {r : JobOpen} {h : HeadProfile} {f : Form}
    (can : s.canTake p Kind.jobOpen.byte r.body) (range : r.inRange = true) (profile : s.profile = some h)
    (form : s.activeForm r.form = some f) (accepted : s.openRefusal p r h = none) : exec (.jobOpen p r.body) s =
      .next (((s.taken p).openJob p r f).accept p .jobOpen (byte2 s.nextFreeNumber)) := by
  have opened : (s.taken p).takeJobOpen p (some r) = ((s.taken p).openJob p r f).accept p .jobOpen (byte2 s.nextFreeNumber) := by
    simp only [State.takeJobOpen, show (s.taken p).profile = some h from profile,
      show (s.taken p).openRefusal p r h = none from accepted, taken_activeForm, form, taken_nextFreeNumber]
  rw [← opened]
  exact record_of_parsed (act := fun r s => s.takeJobOpen p r) can (parseJobOpen_body range)

theorem taken_pending (s : State) (p q : Port) : ((s.taken p).port q).pending = (s.port q).pending := by
  rw [taken_port]
  split <;> simp

/-- Settles O24: the job is placed, then the pool is swept for it. -/
theorem jobOpenSweepsThePool : Obligations.JobOpenSweepsThePool := by
  intro s p r h f key can range profile free form own fits keyed new room numbers serves
  have accepted : s.openRefusal p r h = none := openRefusal_eq_none free form own fits (fun none => by simp [keyed] at none)
    (fun k same => by rwa [← Option.some.inj (keyed.symm.trans same)]) room
  have exec_eq := exec_jobOpen_accepted can range profile form accepted
  rw [openJob_of_key (s := s.taken p) keyed, taken_nextFreeNumber] at exec_eq
  set placed := (s.taken p).jobPlaced p (r.job s.nextFreeNumber p) with placed_eq
  have queued : placed.job? s.nextFreeNumber = some (r.job s.nextFreeNumber p) :=
    job?_jobPlaced (s := s.taken p) (j := r.job s.nextFreeNumber p) numbers p
  obtain ⟨k, found, contribs⟩ := sweepPool_job? queued f key
  replace contribs : k.contribs = placed.moved f key := contribs
  refine ⟨_, exec_eq, ?_, ?_, ⟨k, found, fun c => ?_⟩, fun q => ?_⟩
  · rw [sweepPool_frame]
    rfl
  · rw [sweepPool_frame]
    rfl
  · rw [contribs, mem_moved]
    simp only [admits_iff]
    rfl
  · rw [isIn_of_refused (sweepPool_port ..), placed_eq, jobPlaced_pending, taken_pending]
    refine or_congr_right ?_
    simp only [true_and, serves]
    refine exists_congr fun e => and_congr_right fun _ => and_congr_right fun same => and_congr_right fun _ => ?_
    rw [← Bool.not_eq_true, admits_iff, and_iff_right same]

end Sys2Proof.Machine
end

section
/-! PROOFS. CONTRIBUTE: its body read back, the contribution stored in the job it meets (O30) or kept in the pool (O31). -/

namespace Sys2Proof.Machine

/-! ### The record -/

/-- A CONTRIBUTE within its ranges is read back (R80, R174). -/
theorem parseContribute_body {r : Contribute} (range : r.inRange = true) : parseContribute r.body = some r := by
  obtain ⟨key, field, value⟩ := r
  simp only [Contribute.inRange, validKey, Bool.and_eq_true, decide_eq_true_eq] at range
  obtain ⟨⟨⟨⟨⟨-, short⟩, -⟩, -⟩, low⟩, brief⟩ := range
  have body : Contribute.body ⟨key, field, value⟩ = byte1 key.length ++ key ++ (byte1 field ++ (byte1 value.length ++ value)) := by
    simp [Contribute.body, packText]
  have past (i : Nat) : natAt (Contribute.body ⟨key, field, value⟩) (1 + key.length + i) =
      natAt (byte1 field ++ (byte1 value.length ++ value)) i := by
    have skip := natAt_append_right (byte1 key.length ++ key) (byte1 field ++ (byte1 value.length ++ value)) i
    rwa [← body, List.length_append, length_byte1] at skip
  have count : natAt (Contribute.body ⟨key, field, value⟩) 0 = key.length := by
    rw [body, List.append_assoc]
    exact natAt_byte1 (by omega) _
  have number : natAt (Contribute.body ⟨key, field, value⟩) (1 + key.length) = field :=
    (past 0).trans (natAt_byte1 (by omega) _)
  have size : natAt (Contribute.body ⟨key, field, value⟩) (2 + key.length) = value.length := by
    rw [show 2 + key.length = 1 + key.length + 1 by omega, past 1, natAt_byte1_succ]
    exact natAt_byte1 (by omega) _
  have keyPart : sliceAt (Contribute.body ⟨key, field, value⟩) 1 key.length = key := by
    rw [body]
    exact sliceAt_append (byte1 key.length) key _
  have valuePart : sliceAt (Contribute.body ⟨key, field, value⟩) (3 + key.length) value.length = value := by
    have cut := sliceAt_append (byte1 key.length ++ key ++ byte1 field ++ byte1 value.length) value []
    have start : (byte1 key.length ++ key ++ byte1 field ++ byte1 value.length).length = 3 + key.length := by
      simp
      omega
    rw [start] at cut
    simpa [body] using cut
  have length : (Contribute.body ⟨key, field, value⟩).length = 3 + key.length + value.length := by
    simp [body]
    omega
  simp only [parseContribute, count, number, size, keyPart, valuePart]
  exact if_pos (by simp [length]; omega)

theorem exec_contribute {s : State} {p : Port} {r : Contribute} (can : s.canTake p Kind.contribute.byte r.body)
    (range : r.inRange = true) : exec (.contribute p r.body) s = .next ((s.taken p).takeContribute p r) :=
  record_of_parsed (act := fun r s => s.takeContribute p r) can (parseContribute_body range)

/-! ### The job's contributions and marks -/

/-- A contribution stored for a field is the field's, and the other fields keep theirs (R81). -/
theorem putContrib_find? (j : Job) (c : Contribution) (m : Nat) : (j.putContrib c).contribs.find? (fun x => x.field == m) =
    if m = c.field then some c else j.contribs.find? fun x => x.field == m := by
  unfold Job.putContrib
  dsimp only
  split
  next held =>
    have search : (fun x : Contribution => (if x.field = c.field then c else x).field == m) = fun x => x.field == m := by
      funext x
      split
      next same => rw [same]
      next => rfl
    rw [List.find?_map, Function.comp_def, search]
    split
    next same =>
      subst same
      obtain ⟨x, found⟩ := Option.isSome_iff_exists.mp (List.find?_isSome.mpr (List.any_eq_true.mp held))
      have field : x.field = c.field := by simpa using List.find?_some found
      rw [found, Option.map_some, if_pos field]
    next other =>
      cases found : j.contribs.find? fun x => x.field == m with
      | none => rfl
      | some x =>
        have field : x.field = m := by simpa using List.find?_some found
        rw [Option.map_some, if_neg (field ▸ other)]
  next none =>
    rw [List.find?_append]
    split
    next same =>
      subst same
      have new : j.contribs.find? (fun x => x.field == c.field) = Option.none := by simpa using none
      simp [new]
    next other => simp [Ne.symm other]

/-- A contribution stored for a field removes the field's fallback mark alone (R81). -/
theorem mem_putContrib_marks {j : Job} {c : Contribution} {m : Nat} : m ∈ (j.putContrib c).marks ↔ m ∈ j.marks ∧ m ≠ c.field := by
  simp [Job.putContrib]

/-! ### The job it meets -/

theorem takeContribute_of_job {s : State} {r : Contribute} {j : Job} (range : r.inRange = true) (found : s.jobWithKey? r.key = some j)
    (p : Port) : s.takeContribute p r = s.contributeToJob p r j := by
  simp [State.takeContribute, range, found]

/-- The state with a contribution stored in a job (R81, R82). -/
def State.contributed (s : State) (j : Job) (c : Contribution) : State := (s.onJob j.number (·.putContrib c)).mergeFilled j.number

/-- CONTRIBUTE for a CONTRIB field of the job it meets: TOO-LATE, STORE-FULL, or stored (R80, R81). -/
theorem contributeToJob_of_field {s : State} {p : Port} {r : Contribute} {j : Job} {f : Form} (form : s.activeForm j.form = some f)
    (field : ∃ x ∈ f.fields, x.number = r.field ∧ x.source = .contrib p) : s.contributeToJob p r j =
      if j.cancelled || 0 < j.composed then s.answer p .contribute .tooLate
      else if !s.storeTakes (j.contribLength r.field) r.value.length then s.answer p .contribute .storeFull
      else (s.contributed j { field := r.field, port := p, value := r.value }).accept p .contribute (1#8 :: byte2 j.number) := by
  have has : (f.contribField? r.field p).isSome = true := by simpa [Form.contribField?] using field
  simp only [State.contributeToJob, form, Option.any_some, has]
  rfl

/-- What a job's required fields lack does not depend on its wait (R55, R82). -/
theorem missing_merged (s : State) (j : Job) : s.missing (s.merged j) = s.missing j := by
  rw [merged_frame]
  rfl

/-- The job a contribution is stored in, as it then stands in the queue (R81, R82). -/
theorem contributed_job? {s : State} {j : Job} (queued : s.job? j.number = some j) (c : Contribution) :
    (s.contributed j c).job? j.number = some (s.merged (j.putContrib c)) :=
  job?_onJob (merged_number s) (job?_onJob (f := (·.putContrib c)) (fun _ => rfl) queued)

theorem merged_of_filled {s : State} {j : Job} (filled : s.missing j = []) :
    s.merged j = { j with timer := none, mergeTimeout := false } := if_pos (by simp [filled])

theorem merged_of_lacking {s : State} {j : Job} (lacking : s.missing j ≠ []) : s.merged j = j := if_neg (by simpa using lacking)

/-- Settles O30: the field is a CONTRIB field of the job's form, and of what is left each case takes its own branch. -/
theorem contributionMeetsItsJob : Obligations.ContributionMeetsItsJob := by
  intro s p r j f can range met queued form field
  have taken := takeContribute_of_job (s := s.taken p) range met p
  rw [exec_contribute can range, taken, contributeToJob_of_field (s := s.taken p) form field]
  refine ⟨fun late => by rw [if_pos (by simpa using late)], fun active fresh room => ?_⟩
  have takes : (s.taken p).storeTakes (j.contribLength r.field) r.value.length = true := decide_eq_true room
  rw [if_neg (by simp [active, fresh]), if_neg (by simp [takes])]
  set c : Contribution := { field := r.field, port := p, value := r.value }
  have missing : ((s.taken p).contributed j c).missing (s.merged (j.putContrib c)) = s.missing (j.putContrib c) :=
    missing_merged s (j.putContrib c)
  refine ⟨_, s.merged (j.putContrib c), rfl, rfl, contributed_job? (s := s.taken p) queued c, ?_, fun m other => ⟨?_, ?_⟩, ?_,
    fun filled => ?_, fun lacking => ?_, ?_⟩
  · rw [merged_contribs, putContrib_find?, if_pos rfl]
  · rw [merged_contribs, putContrib_find?, if_neg other]
  · rw [merged_marks, mem_putContrib_marks]
    exact and_iff_left other
  · rw [merged_marks, mem_putContrib_marks]
    exact fun mark => mark.2 rfl
  · rw [merged_of_filled (missing.symm.trans filled)]
    exact ⟨rfl, rfl⟩
  · rw [merged_of_lacking (missing ▸ lacking)]
    exact ⟨rfl, rfl⟩
  · rw [merged_frame]
    rfl

/-! ### The pool -/

/-- CONTRIBUTE with no job for its key and no entry of its name in the pool (R84). -/
theorem takeContribute_new {s : State} {p : Port} {r : Contribute} (range : r.inRange = true) (none : s.jobWithKey? r.key = none)
    (new : ∀ e ∈ s.pool, e.name ≠ (r.entry p).name) : s.takeContribute p r =
      if 24 ≤ s.pool.length then s.answer p .contribute .poolFull
      else if !s.storeTakes 0 r.value.length then s.answer p .contribute .storeFull
      else State.accept { s with pool := s.pool ++ [r.entry p] } p .contribute [0#8, 0#8, 0#8] := by
  have missing : s.pool.find? (·.isFor r.key p r.field) = Option.none :=
    List.find?_eq_none.mpr fun e mem same => new e mem ((isFor_iff ..).mp same)
  rw [State.takeContribute, if_neg (by simp [range])]
  simp only [none, State.contributeToPool, missing, pooled_of_new new]
  rfl

/-- CONTRIBUTE with no job for its key, in place of the one pool entry of its name (R84). -/
theorem takeContribute_replaces {s : State} {p : Port} {r : Contribute} {e : PoolEntry} {front back : List PoolEntry}
    (range : r.inRange = true) (none : s.jobWithKey? r.key = none) (pool : s.pool = front ++ e :: back)
    (mine : e.name = (r.entry p).name) (others : ∀ x ∈ front ++ back, x.name ≠ (r.entry p).name)
    (room : s.storeTakes e.value.length r.value.length = true) : s.takeContribute p r =
      State.accept { s with pool := front ++ r.entry p :: back } p .contribute [0#8, 0#8, 0#8] := by
  have mem : e ∈ s.pool := pool ▸ List.mem_append_right front (List.mem_cons_self ..)
  have before : front.find? (·.isFor r.key p r.field) = Option.none :=
    List.find?_eq_none.mpr fun x at_front same => others x (List.mem_append_left back at_front) ((isFor_iff ..).mp same)
  have found : s.pool.find? (·.isFor r.key p r.field) = some e := by
    have named : e.isFor r.key p r.field = true := (isFor_iff ..).mpr mine
    simp [pool, before, named]
  have keep {l : List PoolEntry} (sub : l ⊆ front ++ back) : (l.map fun x => if x.name = e.name then r.entry p else x) = l := by
    conv_rhs => rw [← List.map_id l]
    exact List.map_congr_left fun x inner => if_neg (mine ▸ others x (sub inner))
  have replaced : s.pooled p r = { s with pool := front ++ r.entry p :: back } := by
    rw [pooled_of_mem mem mine, pool, List.map_append, List.map_cons, keep (List.subset_append_left ..),
      keep (List.subset_append_right ..), if_pos rfl]
  rw [State.takeContribute, if_neg (by simp [range])]
  simp only [none, State.contributeToPool, found, room, replaced]
  rfl

/-- Settles O31: no entry of its name and the pool full, no such entry and room, or the one entry replaced. -/
theorem contributionGoesToThePool : Obligations.ContributionGoesToThePool := by
  intro s p r can range none mine entry
  rw [exec_contribute can range]
  refine ⟨fun new full => ?_, fun new free room => ?_, fun front e back pool same others room => ?_⟩
  · rw [takeContribute_new (s := s.taken p) range none fun e mem same => new e mem (name_eq_iff.mp same)]
    exact congrArg _ (if_pos full)
  · have takes : (s.taken p).storeTakes 0 r.value.length = true := decide_eq_true room
    rw [takeContribute_new (s := s.taken p) range none fun e mem same => new e mem (name_eq_iff.mp same), takes]
    exact congrArg _ (if_neg (Nat.not_le.mpr free))
  · exact congrArg _ (takeContribute_replaces (s := s.taken p) range none pool (name_eq_iff.mpr same)
      (fun x mem name => others x mem (name_eq_iff.mp name)) (decide_eq_true room))

end Sys2Proof.Machine
end

section
/-! PROOFS. The merge timer's seconds, and what its expiry does under each policy (O32). -/

namespace Sys2Proof.Machine

/-! ### A second of the timer -/

theorem exec_mergeTimerSecond {s : State} (runs : s.held = false) (n : Nat) :
    exec (.mergeTimerSecond n) s = .next (s.onJob n fun j => { j with timer := j.timer.map (· - 1) }) :=
  running_of_not_held runs fun s => s.onJob n fun j => { j with timer := j.timer.map (· - 1) }

/-! ### The policies -/

/-- The timer of a job in its last second or at 0 expires by the policy of the job's form (R89). -/
theorem exec_mergeTimerExpiry {s : State} {n : Nat} {j : Job} {f : Form} (runs : s.held = false) (found : s.job? n = some j)
    (form : s.activeForm j.form = some f) (due : j.timer = some 0 ∨ j.timer = some 1) :
    exec (.mergeTimerExpiry n) s = .next (s.expire j f.policy) := by
  have ends : j.timer.any (· ≤ 1) = true := by
    obtain due | due := due <;> simp [due]
  refine (running_of_not_held runs (·.timerExpires n)).trans (congrArg _ ?_)
  simp only [State.timerExpires, found, form, ends, if_true]

theorem expire_fallback (s : State) (j : Job) :
    s.expire j .fallback = s.onJob j.number fun k => { k with timer := none, marks := k.marks ++ s.missing k } :=
  onJob_onJob (f := fun k => { k with timer := none }) (fun _ => rfl) s j.number fun k => { k with marks := k.marks ++ s.missing k }

theorem expire_hold (s : State) (j : Job) :
    s.expire j .hold = (s.onJob j.number fun k => { k with timer := none, mergeTimeout := true }).post j.origin .jobHeld :=
  congrArg (fun t : State => t.post j.origin .jobHeld)
    (onJob_onJob (f := fun k => { k with timer := none }) (fun _ => rfl) s j.number fun k => { k with mergeTimeout := true })

/-- With the fields it lacks marked, a job lacks none of its form's (R55, R89). -/
theorem formMissing_marked (f : Form) (j : Job) : f.missing { j with timer := none, marks := j.marks ++ f.missing j } = [] := by
  refine List.filter_eq_nil_iff.mpr fun n required => ?_
  have marked : Job.filled { j with timer := none, marks := j.marks ++ f.missing j } n = (j.filled n || (f.missing j).contains n) := by
    simp [Job.filled, Bool.or_assoc]
  rw [marked]
  by_cases filled : j.filled n = true
  · simp [filled]
  · have lacking : n ∈ f.missing j := List.mem_filter.mpr ⟨required, by simpa using filled⟩
    simp [lacking]

theorem missing_marked (s : State) (j : Job) : s.missing { j with timer := none, marks := j.marks ++ s.missing j } = [] := by
  unfold State.missing
  cases s.activeForm j.form with
  | none => rfl
  | some f => exact formMissing_marked f j

/-- A job changed and then out of the queue leaves the other jobs as they were (R74). -/
theorem queue_leaveQueue_onJob {s : State} {n : Nat} {f : Job → Job} (number : ∀ k, (f k).number = k.number) :
    ((s.onJob n f).leaveQueue n).queue = s.queue.filter fun k => k.number != n := by
  show (s.queue.map _).filter _ = _
  have keeps (k : Job) : (if k.number = n then f k else k).number = k.number := by
    split
    · exact number k
    · rfl
  rw [List.filter_map]
  have search : ((fun k : Job => k.number != n) ∘ fun k => if k.number = n then f k else k) = fun k => k.number != n := by
    funext k
    simp only [Function.comp_apply, keeps]
  rw [search]
  conv_rhs => rw [← List.map_id (s.queue.filter fun k => k.number != n)]
  exact List.map_congr_left fun k mem => if_neg (by simpa using (List.mem_filter.mp mem).2)

/-- Under VOID the job leaves the queue, and its report is the last on its origin's list (R91). -/
theorem expire_void (s : State) (j : Job) : (s.expire j .void).queue = s.queue.filter (fun k => k.number != j.number) ∧
    ((s.expire j .void).port j.origin).reports.getLast? = some (.completion (mergeVoidReport j)) ∧
    s.expire j .void = { s with queue := (s.expire j .void).queue, ports := (s.expire j .void).ports } := by
  have unfolded : s.expire j .void =
      ((s.onJob j.number fun k => { k with timer := none }).placeCompletion (mergeVoidReport j)).leaveQueue j.number := rfl
  have last := placeCompletion_last (s.onJob j.number fun k => { k with timer := none }) (mergeVoidReport j)
  rw [unfolded]
  refine ⟨?_, ?_, ?_⟩
  · rw [placeCompletion_frame]
    exact queue_leaveQueue_onJob (s := s) (f := fun k => { k with timer := none }) fun _ => rfl
  · rw [leaveQueue_port]
    exact last
  · rw [placeCompletion_frame]
    rfl

/-- Settles O32: a second by what the timer is, the expiry by the form's policy. -/
theorem mergeTimerRunsAndExpires : Obligations.MergeTimerRunsAndExpires := by
  refine ⟨fun s n j k runs found timer => ?_, fun s n j f runs found form due => ?_⟩
  · refine ⟨_, exec_mergeTimerSecond runs n, ?_, rfl⟩
    rw [job?_onJob (f := fun j => { j with timer := j.timer.map (· - 1) }) (fun _ => rfl) found, timer]
    rfl
  · obtain rfl := job?_number found
    have expires := exec_mergeTimerExpiry runs found form due
    refine ⟨fun policy => ?_, fun policy => ?_, fun policy => ?_⟩ <;> rw [policy] at expires
    · rw [expire_fallback] at expires
      exact ⟨_, expires, job?_onJob (f := fun k => { k with timer := none, marks := k.marks ++ s.missing k }) (fun _ => rfl) found,
        missing_marked s j, rfl⟩
    · rw [expire_hold] at expires
      refine ⟨_, expires, job?_onJob (f := fun k => { k with timer := none, mergeTimeout := true }) (fun _ => rfl) found,
        (isIn_port_post ..).mpr (.inr ⟨rfl, rfl⟩), fun q other => ?_, rfl⟩
      exact port_onPort_ne _ _ other.symm
    · obtain ⟨queue, report, frame⟩ := expire_void s j
      exact ⟨_, expires, queue, report, frame⟩

end Sys2Proof.Machine
end

section
/-! PROOFS. BAND-TAKE and BAND-FILL-COMPLETE: the buffer the composer takes (O46), and the FULL band with what the engine does about it (O47). -/

namespace Sys2Proof.Machine

/-! ### Taking a buffer (R97, R102) -/

/-- A label that still has lines gets a band of 1 to 64 of them, a last one where no line is left (R97). -/
theorem bandRecord_lines {job copy b length : Nat} (left : 64 * b < length) :
    let r := bandRecord job copy b length
    1 ≤ r.count ∧ r.count ≤ 64 ∧ (r.last = true ↔ r.first + r.count = length) ∧ (r.last = false → r.count = 64) ∧
      r.first + r.count ≤ length := by
  simp only [bandRecord, beq_iff_eq, beq_eq_false_iff_ne, ne_eq]
  exact ⟨by omega, by omega, trivial, by omega, by omega⟩

/-- A buffer the composer has just taken for its label's next band (R97, R102). -/
def Hand.taking (h : Hand) (length : Nat) : Buffer :=
  { state := .filling, record := some (bandRecord h.job h.copy h.nextBand length), cells := [] }

/-- The composer takes the FREE buffer at the fill position (R102). -/
theorem takeBuffer_free {s : State} {h : Hand} {j : Job} {f : Form} (hand : s.hand = some h) (idle : s.filling? = none)
    (queued : s.job? h.job = some j) (form : s.activeForm j.form = some f) (free : (s.buffer s.ring.fill).state = .free) :
    s.takeBuffer = { s with
      ring := { (s.onBuffer s.ring.fill fun _ => h.taking f.length).ring with fill := s.ring.fill + 1 }
      hand := some { h with nextBand := h.nextBand + 1 } } := by
  simp only [State.takeBuffer, hand, idle, queued, Option.bind_some, form, free, if_true]
  rfl

/-- Settles O46, by the one case of the taking that acts. -/
theorem composerTakesTheFillBuffer : Obligations.ComposerTakesTheFillBuffer := by
  intro s h j f runs hand idle queued form free left
  obtain ⟨some, few, last, whole, within⟩ := bandRecord_lines (job := h.job) (copy := h.copy) left
  have exec : exec .bandTake s = .next s.takeBuffer := running_of_not_held runs _
  rw [takeBuffer_free hand idle queued form free] at exec
  have taken := buffer_onBuffer_self s s.ring.fill fun _ => h.taking f.length
  have others (i : Fin 8) (other : i ≠ s.ring.fill) := buffer_onBuffer_ne s (fun _ => h.taking f.length) other.symm
  exact ⟨_, bandRecord h.job h.copy h.nextBand f.length, exec, congrArg Buffer.state taken, congrArg Buffer.record taken, rfl, rfl, rfl,
    rfl, some, few, last, whole, within, rfl, rfl, others, rfl, rfl, rfl⟩

/-! ### The end of a fill (R103, R109, R111) -/

/-- The composer fills a buffer for its label's band, all that the fill reads being known (R103). -/
structure State.Fills (s : State) (h : Hand) (i : Fin 8) (r : BandRecord) (j : Job) (f : Form) (p : HeadProfile) (l : LabelRecord) :
    Prop where
  hand    : s.hand = some h
  filling : s.filling? = some i
  record  : (s.buffer i).record = some r
  queued  : s.job? h.job = some j
  form    : s.activeForm j.form = some f
  profile : s.profile = some p
  label   : s.label? h.job h.copy = some l

/-- A band record with its check value (R111). -/
def BandRecord.checked (r : BandRecord) (f : Form) (cells : List (List Cell)) : BandRecord :=
  { r with check := bandCheck f.printPlanes r.count cells }

/-- A buffer once its band is filled (R103, R111). -/
def BandRecord.fullBuffer (r : BandRecord) (f : Form) (cells : List (List Cell)) : Buffer :=
  { state := .full, record := some (r.checked f cells), cells := cells }

/-- The label records once the counts are settled, which band 0 does (R109). -/
def State.countedLabels (s : State) (h : Hand) (band : Nat) (rendered : List (Field × Rendering × Planes)) : List LabelRecord :=
  s.labels.map fun m => if band = 0 ∧ m.job = h.job ∧ m.copy = h.copy then m.counted rendered else m

/-- The state at the end of a fill: the band FULL with its dots and check value, its label's counts settled, and the composer's label
ended by a last band (R103, R109, R111). -/
def State.filled (s : State) (h : Hand) (i : Fin 8) (r : BandRecord) (f : Form) (cells : List (List Cell))
    (rendered : List (Field × Rendering × Planes)) : State :=
  { s with
    ring := (s.onBuffer i fun _ => r.fullBuffer f cells).ring
    labels := s.countedLabels h r.band rendered
    hand := if r.last then none else some h }

/-- What the end of a fill does, all of it (R103). -/
theorem finishFill_eq {s : State} {h : Hand} {i : Fin 8} {r : BandRecord} {j : Job} {f : Form} {p : HeadProfile} {l : LabelRecord}
    (fills : s.Fills h i r j f p l) :
    let rendered := renderLabel f j l.values h.copy h.snapshot
    s.finishFill = s.filled h i r f (bandCells p.dots f.width (drawnFields rendered) r) rendered := by
  obtain ⟨hand, filling, record, queued, form, profile, label⟩ := fills
  intro rendered
  have counts : s.countedLabels h r.band rendered = if r.band = 0 then
      s.labels.map fun m => if m.job = h.job ∧ m.copy = h.copy then m.counted rendered else m else s.labels := by
    unfold State.countedLabels
    split
    next band => simp only [band, true_and]
    next band => simp only [band, false_and, if_false, List.map_id']
  simp only [State.finishFill, hand, filling, record, queued, form, profile, label, Option.map_some, Option.getD_some]
  rw [State.filled, counts]
  by_cases band : r.band = 0
  · by_cases last : r.last = true
    · simp only [if_pos band, if_pos last]
      rfl
    · simp only [if_pos band, if_neg last, ← hand]
      rfl
  · by_cases last : r.last = true
    · simp only [if_neg band, if_pos last]
      rfl
    · simp only [if_neg band, if_neg last, ← hand]
      rfl

section

variable {s : State} {h : Hand} {i : Fin 8} {r : BandRecord} {f : Form} {cells : List (List Cell)}
  {rendered : List (Field × Rendering × Planes)}

theorem filled_buffer_self : (s.filled h i r f cells rendered).buffer i = r.fullBuffer f cells :=
  buffer_onBuffer_self s i fun _ => r.fullBuffer f cells

theorem filled_buffer_ne {k : Fin 8} (other : k ≠ i) : (s.filled h i r f cells rendered).buffer k = s.buffer k :=
  buffer_onBuffer_ne s (fun _ => r.fullBuffer f cells) other.symm

/-- Where the fill was of the buffer at the take position, the band is there for the engine (R98). -/
theorem filled_takeFull? (take : i = s.ring.take) : (s.filled h i r f cells rendered).takeFull? = some (r.checked f cells) := by
  have buffer := filled_buffer_self (s := s) (h := h) (i := i) (r := r) (f := f) (cells := cells) (rendered := rendered)
  rw [take] at buffer ⊢
  exact takeFull?_eq_some.mpr ⟨congrArg Buffer.state buffer, congrArg Buffer.record buffer⟩

theorem filled_not_burning (idle : ∀ k, (s.buffer k).state ≠ .burning) (k : Fin 8) :
    ((s.filled h i r f cells rendered).buffer k).state ≠ .burning := by
  by_cases same : k = i
  · rw [same, filled_buffer_self]
    exact BufferState.noConfusion
  · rw [filled_buffer_ne same]
    exact idle k

end

/-- Each dot of a band: what the fields wrote there, or blank outside the band's lines or the label's width (R103, R108). -/
theorem bandCells_dot {dots width x y : Nat} (fields : List DrawnField) (r : BandRecord) (line : y < 64) (dot : x < dots) :
    ((bandCells dots width fields r).getD y []).getD x Cell.blank =
      if y < r.count ∧ x < width then composeDot fields x (r.first + y) else Cell.blank := by
  simp [bandCells, List.getD_eq_getElem?_getD, line, dot]

theorem exec_bandFillComplete {s : State} {h : Hand} {i : Fin 8} (runs : s.held = false) (hand : s.hand = some h)
    (filling : s.filling? = some i) : exec .bandFillComplete s = .next s.finishFill.engineLook := by
  have exec : exec .bandFillComplete s = s.running fun s => if s.filling?.isSome && s.hand.isSome then s.finishFill.engineLook else s := rfl
  rw [exec, running_of_not_held runs, hand, filling]
  rfl

/-! ### What the engine makes of a FULL band at the take position -/

/-- A band that is not VOID bars no way (R113). -/
theorem skipVoid_of_band {s : State} {r : BandRecord} (found : s.takeFull? = some r) (live : r.void = false) : s.skipVoid = s := by
  simp only [State.skipVoid, skipVoidFuel, found, live, Bool.false_and, Bool.false_eq_true, if_false]

theorem readyBand?_of_first {s : State} {r : BandRecord} (found : s.takeFull? = some r) (first : r.band = 0) (live : r.void = false) :
    s.readyBand? = some r := by
  simp [State.readyBand?, found, first, live]

/-- From STOPPED the engine chooses a start for a FULL band 0 and goes on (R141). -/
theorem engineLook_stopped {s : State} {r : BandRecord} (stopped : s.engine.mode = .stopped) (found : s.takeFull? = some r)
    (first : r.band = 0) (live : r.void = false) : s.engineLook = (s.onEngine (·.chooseStart s.topOffset)).startMove := by
  have look : s.engineLook = s.goOn := by simp only [State.engineLook, stopped]
  rw [look, State.goOn, State.lookForWork, skipVoid_of_band found live, readyBand?_of_first found first live]
  rfl

/-- With registration lost there is no start to choose, and the engine seeks one (R141). -/
theorem chooseStart_lost {e : Engine} (lost : e.registered = false) (offset : Int) :
    (e.chooseStart offset).mode = .registering ∧ (e.chooseStart offset).task = .seek := by
  have none : (e.prune offset).usableEdge offset = none := if_neg (by simp [lost])
  simp only [Engine.chooseStart, none, and_self]

/-- With registration held the start is chosen by the first record whose start is not below HP (R141). -/
theorem chooseStart_held {e : Engine} {offset : Int} {x : Edge} (held : e.registered = true)
    (usable : e.edges.find? (fun y => decide (e.hp ≤ y.pos + offset)) = some x) :
    (e.chooseStart offset).mode = .burning ∧ (e.chooseStart offset).task = .approach (x.pos + offset) x.pos := by
  have kept : (e.prune offset).usableEdge offset = some x := by
    rw [Engine.usableEdge, if_pos (by simpa using held), ← usable]
    show (e.edges.filter _).find? _ = _
    rw [List.find?_filter]
    congr 1
    funext y
    by_cases ahead : e.hp ≤ y.pos + offset <;> simp [ahead]
  simp only [Engine.chooseStart, kept, and_self]

/-- A search, and an approach to a start ahead, feed a blank line (R134, R141). -/
theorem startMove_ahead {s : State} (task : s.engine.task = .seek ∨ ∃ start edge, s.engine.task = .approach start edge ∧ s.engine.hp < start) :
    s.startMove = s.startBlank := by
  obtain task | ⟨start, edge, task, ahead⟩ := task
  · simp only [State.startMove, task]
  · simp only [State.startMove, task, if_neg (not_le.mpr ahead)]

theorem markBurning_buffer_take (s : State) :
    s.markBurning.buffer s.ring.take = { s.buffer s.ring.take with state := .burning } :=
  buffer_onBuffer_self s s.ring.take fun b => { b with state := .burning }

theorem markBurning_buffer_ne (s : State) {k : Fin 8} (other : s.ring.take ≠ k) : s.markBurning.buffer k = s.buffer k :=
  buffer_onBuffer_ne s (fun b => { b with state := .burning }) other

/-- With no band BURNING before, the band taken at the take position is the one that burns (R98). -/
theorem takeBand_burning? {s : State} (idle : ∀ k, (s.buffer k).state ≠ .burning) : s.takeBand.burning? = some s.ring.take := by
  have taken : (s.takeBand.buffer s.ring.take).state = .burning := congrArg Buffer.state (markBurning_buffer_take s)
  cases found : s.takeBand.burning? with
  | none => exact absurd taken (burning?_eq_none.mp found _)
  | some k =>
    by_contra other
    have burns : (s.takeBand.buffer k).state = .burning := by simpa using List.find?_some found
    refine idle k ?_
    rw [← burns]
    exact congrArg Buffer.state (markBurning_buffer_ne s fun same => other (congrArg some same.symm)).symm

theorem startBurn_line {s : State} {rs : RunSettings} {p : HeadProfile} (set : s.settings = some rs) (profile : s.profile = some p) (y : Nat)
    (bits : List Bool) : ∃ m : Line, s.startBurn y bits = { s with engine := { s.engine with line := some m } } ∧ m.burn.isSome = true := by
  unfold State.startBurn
  split
  · refine ⟨_, rfl, ?_⟩
    rfl
  next lacks => exact absurd profile (lacks rs p set)

/-- A label's line in the FULL band at the take position: the band is taken and the line burned (R98, R142). -/
theorem startLabelLine_fromTake {s : State} {b : HeadLabel} {r : BandRecord} (sound : b.spoiled = false)
    (queued : s.isCancelled b.job = false) (idle : ∀ k, (s.buffer k).state ≠ .burning) (found : s.takeFull? = some r)
    (line : r.hasLine b.job b.copy b.done = true) :
    s.startLabelLine b = s.takeBand.startBurn b.done (s.takeBand.lineBits s.ring.take b.job b.done) := by
  have none : s.burningHas b.job b.copy b.done = false := by rw [State.burningHas, burning?_eq_none.mpr idle]; rfl
  have has : s.takeHas b.job b.copy b.done = true := by rw [State.takeHas, found]; exact line
  have record : (s.takeBand.buffer s.ring.take).record = some r :=
    (congrArg Buffer.record (markBurning_buffer_take s)).trans (takeFull?_eq_some.mp found).2
  have burns : s.takeBand.burningHas b.job b.copy b.done = true := by
    rw [State.burningHas, takeBand_burning? idle, Option.any_some, record]
    exact line
  have flag : s.takeBand.isCancelled b.job = false := queued
  simp only [State.startLabelLine, sound, Bool.false_eq_true, if_false, none, has, Bool.not_false, Bool.and_self, if_true, flag, burns,
    takeBand_burning? idle]

/-- A PAUSED label whose line the FULL band at the take position holds ends its wait: the band is taken and burned on (R143). -/
theorem engineLook_paused_band {s : State} {b : HeadLabel} {r : BandRecord} {rs : RunSettings} {p : HeadProfile}
    (paused : s.engine.mode = .paused) (head : s.burningLabel? = some b) (sound : b.spoiled = false)
    (queued : s.isCancelled b.job = false) (idle : ∀ k, (s.buffer k).state ≠ .burning) (found : s.takeFull? = some r)
    (line : r.hasLine b.job b.copy b.done = true) (set : s.settings = some rs) (profile : s.profile = some p) :
    ∃ m : Line, s.engineLook = { s.takeBand with engine := { s.engine with mode := .burning, line := some m } } ∧ m.burn.isSome = true := by
  have has : s.takeHas b.job b.copy b.done = true := by rw [State.takeHas, found]; exact line
  have look : s.engineLook = (s.onEngine fun e => { e with mode := .burning }).startLabelLine b := by
    simp only [State.engineLook, paused, head, has, Bool.or_true, if_true]
  rw [look, startLabelLine_fromTake (s := s.onEngine _) sound queued idle found line]
  obtain ⟨m, starts, burn⟩ := startBurn_line (s := (s.onEngine fun e => { e with mode := .burning }).takeBand) set profile b.done
    ((s.onEngine fun e => { e with mode := .burning }).takeBand.lineBits s.ring.take b.job b.done)
  exact ⟨m, starts, burn⟩

/-- PRESENTING in TEAR mode, a FULL band 0 begins the owed retract (R147, R149). -/
theorem engineLook_presenting {s : State} {r : BandRecord} (presenting : s.engine.mode = .presenting) (tear : s.peels = false)
    (found : s.takeFull? = some r) (first : r.band = 0) (live : r.void = false) (peel : 0 < s.peelDistance) :
    s.engineLook = s.onEngine fun e =>
      { e.motorStop with mode := .retracting, task := .idle, backLeft := s.peelDistance, backPeriod := 8000 } := by
  have look : s.engineLook = s.lookFromPresenting := by simp only [State.engineLook, presenting]
  have stays : s.lookFromPresenting = s.retract := by
    simp only [State.lookFromPresenting, tear, skipVoid_of_band found live, readyBand?_of_first found first live, Option.isSome_some,
      Bool.false_eq_true, if_false, if_true]
  rw [look, stays, State.retract, if_neg peel.ne']

/-- The labels at the head in DRY once a band of a label is taken (R156; log 20). -/
def Engine.dryHeads (e : Engine) (r : BandRecord) : List HeadLabel :=
  if e.heads.any (fun h => h.job == r.job && h.copy == r.copy) then e.heads
  else e.heads ++ [{ job := r.job, copy := r.copy, start := e.hp, length := 0, edge := none, done := 0, out := false, spoiled := false }]

/-- In DRY with nothing in consumption a FULL band is taken (R156; log 19). -/
theorem engineLook_dry {s : State} {r : BandRecord} (dry : s.engine.mode = .dry) (stays : s.engine.leavingDry = false)
    (idle : s.engine.dryLine = none) (found : s.takeFull? = some r) (live : r.void = false) :
    s.engineLook = s.takeDryBand.onEngine fun e => { e with dryLine := some 0, heads := e.dryHeads r } := by
  have look : s.engineLook = dryTakeFuel 9 s := by
    simp only [State.engineLook, State.dryTake, dry, stays, idle, decide_true, Bool.not_false, Option.isNone_none, Bool.and_self, if_true]
  rw [look]
  simp only [dryTakeFuel, found, live, Bool.false_eq_true, if_false]
  rfl

/-- A label a band of which is taken in DRY is at the head (R156). -/
theorem dryHeads_any (e : Engine) (r : BandRecord) : (e.dryHeads r).any (fun h => h.job == r.job && h.copy == r.copy) = true := by
  unfold Engine.dryHeads
  split
  · assumption
  · simp


/-- Settles O47: the fill's end in full, then the engine's look by mode. -/
theorem fillMakesTheBandFull : Obligations.FillMakesTheBandFull := by
  intro s h i r j f p l runs hand filling record queued form profile label _ rendered counted
  have fills : s.Fills h i r j f p l := ⟨hand, filling, record, queued, form, profile, label⟩
  have exec := exec_bandFillComplete runs hand filling
  rw [finishFill_eq fills] at exec
  set cells := bandCells p.dots f.width (drawnFields rendered) r with dots
  set t := s.filled h i r f cells rendered with done
  have counts : t.labels = counted := by
    refine List.map_congr_left fun m _ => ?_
    split
    · simp only [LabelRecord.counted, isMasked]
      rfl
    · rfl
  have full : (t.buffer i).state = .full := congrArg Buffer.state filled_buffer_self
  have live (void : r.void = false) : (r.checked f cells).void = false := void
  have first (band : r.band = 0) : (r.checked f cells).band = 0 := band
  refine ⟨fun mode => ?_, fun stopped take band void lost set => ?_, fun x stopped take band void held usable ahead => ?_,
    fun b rs paused take head sound alive idle job copy low high set => ?_, fun presenting tear take band void peel => ?_,
    fun dry stays none take void => ?_⟩
  · have stays : t.engineLook = t := by
      obtain mode | mode | mode | mode := mode <;> simp only [State.engineLook, done, State.filled, mode]
    rw [stays] at exec
    exact ⟨t, cells, exec, filled_buffer_self, by simp [dots, bandCells], fun y x line dot => bandCells_dot _ r line dot,
      fun k other => filled_buffer_ne other, rfl, counts, rfl⟩
  · have found : t.takeFull? = _ := filled_takeFull? take
    have look := engineLook_stopped (s := t) stopped found (first band) (live void)
    obtain ⟨mode, task⟩ := chooseStart_lost (e := t.engine) lost t.topOffset
    rw [startMove_ahead (.inl task), startBlank_frame] at look
    rw [look] at exec
    exact ⟨_, exec, mode, task, full, (chooseStart_kept ..).1, rfl⟩
  · have found : t.takeFull? = _ := filled_takeFull? take
    have look := engineLook_stopped (s := t) stopped found (first band) (live void)
    obtain ⟨mode, task⟩ := chooseStart_held (e := t.engine) (offset := t.topOffset) held usable
    have hp := (chooseStart_kept t.engine t.topOffset).1
    rw [startMove_ahead (.inr ⟨_, _, task, by rw [engine_onEngine, hp]; exact ahead⟩), startBlank_frame] at look
    rw [look] at exec
    exact ⟨_, exec, mode, task, full, hp, counts, rfl⟩
  · have found : t.takeFull? = _ := filled_takeFull? take
    have line : (r.checked f cells).hasLine b.job b.copy b.done = true := by
      simp only [BandRecord.hasLine, BandRecord.checked, job, copy, low, high, beq_self_eq_true, decide_true, Bool.and_self]
    obtain ⟨m, look, burn⟩ := engineLook_paused_band (s := t) paused head sound alive (filled_not_burning idle) found line set profile
    rw [look] at exec
    have burning : (t.takeBand.buffer i).state = .burning := by
      rw [take]
      exact congrArg Buffer.state (markBurning_buffer_take t)
    exact ⟨_, m, exec, rfl, burning, rfl, rfl, burn, rfl, counts, rfl⟩
  · have found : t.takeFull? = _ := filled_takeFull? take
    have distance : t.peelDistance = p.peel := by
      show s.profile.elim 0 HeadProfile.peel = _
      rw [profile]
      rfl
    have look := engineLook_presenting (s := t) presenting tear found (first band) (live void) (by rw [distance]; exact peel)
    rw [look] at exec
    exact ⟨_, exec, rfl, distance, rfl, full, rfl, counts, rfl⟩
  · have found : t.takeFull? = _ := filled_takeFull? take
    have look := engineLook_dry (s := t) dry stays none found (live void)
    rw [look] at exec
    have burning : (t.takeDryBand.buffer i).state = .burning := by
      rw [take]
      exact congrArg Buffer.state (markBurning_buffer_take t)
    exact ⟨_, exec, dry, rfl, burning, take_takeDryBand t, dryHeads_any t.engine (r.checked f cells), counts, rfl⟩

end Sys2Proof.Machine
end

section
/-! PROOFS. The lid opening: what the ends of the labels at the head leave, what a flush makes of the labels in flight and in which order, and
so the entry into FAULT loses no label (O45). -/

namespace Sys2Proof.Machine

/-! ### Lists kept at first places -/

theorem firstOnly_concat {α : Type} [DecidableEq α] (l : List α) (x : α) :
    firstOnly (l ++ [x]) = if x ∈ firstOnly l then firstOnly l else firstOnly l ++ [x] := by
  rw [firstOnly, List.foldl_append]
  rfl

theorem mem_firstOnly {α : Type} [DecidableEq α] {l : List α} {x : α} : x ∈ firstOnly l ↔ x ∈ l := by
  induction l using List.reverseRecOn with
  | nil => rfl
  | append_singleton l y ih =>
    rw [firstOnly_concat, List.mem_append, List.mem_singleton, ← ih]
    split
    next old => exact ⟨.inl, fun h => h.elim id fun same => same ▸ old⟩
    next => rw [List.mem_append, List.mem_singleton]

/-- A list extended at its end: its first places stand in an order that the new member respects. -/
theorem firstOnly_concat_pairwise {α : Type} [DecidableEq α] {R : α → α → Prop} {l : List α} {x : α} (order : (firstOnly l).Pairwise R)
    (behind : x ∉ l → ∀ y ∈ l, R y x) : (firstOnly (l ++ [x])).Pairwise R := by
  rw [firstOnly_concat]
  split
  · exact order
  next new =>
    refine List.pairwise_append.mpr ⟨order, List.pairwise_singleton .., fun y mem z last => ?_⟩
    rw [List.mem_singleton.mp last]
    exact behind (new ∘ mem_firstOnly.mpr) y (mem_firstOnly.mp mem)

/-- One of some places holds the one, and up to there none holds the other (R115). -/
def heldBefore {α : Type} {n : Nat} (g : Fin n → Option α) (places : List (Fin n)) (x y : α) : Prop :=
  ∃ k ∈ places, g k = some x ∧ ∀ i ∈ places, i ≤ k → g i ≠ some y

/-- A further place behind the others changes nothing of that. -/
theorem heldBefore_append {α : Type} {n : Nat} {g : Fin n → Option α} {places : List (Fin n)} {a : Fin n} (behind : ∀ k ∈ places, k < a)
    {x y : α} (before : heldBefore g places x y) : heldBefore g (places ++ [a]) x y := by
  obtain ⟨k, mem, at_k, free⟩ := before
  refine ⟨k, List.mem_append_left _ mem, at_k, fun i among le => ?_⟩
  obtain early | last := List.mem_append.mp among
  · exact free i early le
  · have later := behind k mem
    rw [List.mem_singleton] at last
    omega

/-- What some places hold, each once, stands in the order of the first place of each (R115). -/
theorem firstOnly_filterMap_order {α : Type} [DecidableEq α] {n : Nat} (g : Fin n → Option α) {places : List (Fin n)}
    (rising : places.Pairwise (· < ·)) : (firstOnly (places.filterMap g)).Pairwise (heldBefore g places) := by
  induction places using List.reverseRecOn with
  | nil => exact .nil
  | append_singleton places a ih =>
    obtain ⟨rises, -, above⟩ := List.pairwise_append.mp rising
    have behind (k : Fin n) (mem : k ∈ places) : k < a := above k mem a (List.mem_singleton_self a)
    have old : (firstOnly (places.filterMap g)).Pairwise (heldBefore g (places ++ [a])) := (ih rises).imp (heldBefore_append behind)
    rw [List.filterMap_append]
    cases last : g a with
    | none => simpa [last] using old
    | some z =>
      rw [show [a].filterMap g = [z] by simp [last]]
      refine firstOnly_concat_pairwise old fun new x mem => heldBefore_append behind ?_
      obtain ⟨k, among, at_k⟩ := List.mem_filterMap.mp mem
      exact ⟨k, among, at_k, fun i early _ held => new (List.mem_filterMap.mpr ⟨i, early, held⟩)⟩

/-! ### Finding among what a name keeps -/

/-- Label records kept by their names are found by them as before (R99). -/
theorem find?_label_filter (keep : Nat → Nat → Bool) (labels : List LabelRecord) (job copy : Nat) :
    (labels.filter fun l => keep l.job l.copy).find? (fun l => l.job == job && l.copy == copy) =
      if keep job copy then labels.find? (fun l => l.job == job && l.copy == copy) else none := by
  rw [List.find?_filter]
  split
  next kept =>
    refine congrArg (List.find? · labels) (funext fun l => ?_)
    by_cases same : l.job = job ∧ l.copy = copy
    · simp [same, kept]
    · simp only [← Bool.and_eq_true_iff, Bool.decide_eq_true]
      have : (l.job == job && l.copy == copy) = false := by simpa using same
      rw [this, Bool.and_false]
  next dropped =>
    refine List.find?_eq_none.mpr fun l _ named => ?_
    simp only [Bool.and_eq_true, beq_iff_eq, decide_eq_true_eq] at named
    obtain ⟨kept, rfl, rfl⟩ := named
    exact dropped kept

/-- Jobs kept by their numbers are found by them as before. -/
theorem find?_job_filter (keep : Nat → Bool) (queue : List Job) (n : Nat) :
    (queue.filter fun j => keep j.number).find? (fun j => j.number == n) =
      if keep n then queue.find? (fun j => j.number == n) else none := by
  rw [List.find?_filter]
  split
  next kept =>
    refine congrArg (List.find? · queue) (funext fun j => ?_)
    by_cases same : j.number = n
    · simp [same, kept]
    · simp [same]
  next dropped =>
    refine List.find?_eq_none.mpr fun j _ named => ?_
    simp only [beq_iff_eq, decide_eq_true_eq] at named
    obtain ⟨kept, rfl⟩ := named
    exact dropped kept

theorem leaveQueue_job? (s : State) (m n : Nat) : (s.leaveQueue m).job? n = if n = m then none else s.job? n := by
  have search := find?_job_filter (fun k => k != m) s.queue n
  simp only [bne_iff_ne, ne_eq, ite_not] at search
  exact search

theorem onJob_job? (s : State) (m : Nat) {f : Job → Job} (number : ∀ k, (f k).number = k.number) (n : Nat) :
    (s.onJob m f).job? n = if n = m then (s.job? n).map f else s.job? n := by
  have same (i : Job) : (if i.number = m then f i else i).number = i.number := by split <;> simp [number]
  have search : (fun i : Job => (if i.number = m then f i else i).number == n) = fun i => i.number == n := by
    funext i
    rw [same]
  show (s.queue.map _).find? _ = _
  rw [List.find?_map, Function.comp_def, search]
  show (s.job? n).map _ = _
  cases found : s.job? n with
  | none => simp
  | some k =>
    rw [Option.map_some, job?_number found]
    split <;> rfl

/-- No job comes into the queue by settling (R72). -/
theorem job?_of_settle {s : State} {n : Nat} {k : Job} (found : s.settle.job? n = some k) : s.job? n = some k := by
  rw [State.job?, settle_queue,
    find?_job_filter fun m => s.queue.all fun j => !(j.cancelled && !s.settle.jobInFlight j.number) || m != j.number] at found
  split at found
  · exact found
  · cases found

/-! ### A label end in parts -/

/-- A job once a label of it has ended, none where that was its last copy (R73). -/
def Job.afterEnd (j : Job) (o : LabelOutcome) : Option Job :=
  if o.completes then if j.completed + 1 = j.total then none else some { j with completed := j.completed + 1 } else some j

/-- The queue's count of a label end (R73). -/
def State.endCounted (s : State) (job : Nat) (j : Job) (o : LabelOutcome) : State :=
  let s := if o.completes then s.onJob job (fun j => { j with completed := j.completed + 1 }) else s
  if o.completes && j.completed + 1 == j.total then s.leaveQueue job else s

/-- The end of a label of a queued job: reported, taken off, counted, and the labels settled (R73, R75, R76). -/
theorem endLabel_known {s : State} {job copy : Nat} {j : Job} {l : LabelRecord} (queued : s.job? job = some j)
    (found : s.label? job copy = some l) (o : LabelOutcome) (mismatch : Bool) : s.endLabel job copy o mismatch =
      (((s.placeCompletion (completionOf j l o mismatch)).labelOff job copy).endCounted job j o).settle := by
  simp only [State.endLabel, queued, found]
  rfl

theorem endCounted_frame (s : State) (job : Nat) (j : Job) (o : LabelOutcome) : s.endCounted job j o =
    { s with queue := (s.endCounted job j o).queue, ports := (s.endCounted job j o).ports } := by
  unfold State.endCounted
  split <;> split <;> rfl

theorem endCounted_job? {s : State} {job : Nat} {j : Job} (queued : s.job? job = some j) (o : LabelOutcome) (n : Nat) :
    (s.endCounted job j o).job? n = if n = job then j.afterEnd o else s.job? n := by
  unfold State.endCounted Job.afterEnd
  by_cases same : n = job
  · subst same
    cases o.completes with
    | false => simp [queued]
    | true =>
      by_cases last : j.completed + 1 = j.total
      · simp [last, leaveQueue_job?]
      · simp [last, onJob_job?, queued]
  · split <;> split <;> simp [same, leaveQueue_job?, onJob_job?]

theorem placeCompletion_job? (s : State) (c : Completion) (n : Nat) : (s.placeCompletion c).job? n = s.job? n := by
  rw [placeCompletion_frame]
  rfl

theorem labelOff_job? (s : State) (job copy n : Nat) : (s.labelOff job copy).job? n = s.job? n := rfl

theorem labelOff_port (s : State) (job copy : Nat) (q : Port) : (s.labelOff job copy).port q = s.port q := rfl

/-- A label reported and taken off leaves the jobs as they were. -/
theorem reported_job? (s : State) (c : Completion) (job copy n : Nat) :
    ((s.placeCompletion c).labelOff job copy).job? n = s.job? n := by
  rw [labelOff_job?, placeCompletion_job?]

/-- A job found after a label end is the one before, its count apart (R73). -/
theorem endLabel_job? {s : State} {job copy n : Nat} {o : LabelOutcome} {mismatch : Bool} {k : Job}
    (found : (s.endLabel job copy o mismatch).job? n = some k) :
    ∃ j, s.job? n = some j ∧ if n = job ∧ s.label? job copy ≠ none then j.afterEnd o = some k else j = k := by
  by_cases unknown : s.job? job = none ∨ s.label? job copy = none
  · rw [endLabel_unknown unknown] at found
    have same : s.job? n = some k := found
    refine ⟨k, same, ?_⟩
    rw [if_neg]
    rintro ⟨rfl, label⟩
    obtain none | none := unknown
    · rw [none] at same
      cases same
    · exact label none
  · push Not at unknown
    obtain ⟨j, queued⟩ := Option.ne_none_iff_exists'.mp unknown.1
    obtain ⟨l, label⟩ := Option.ne_none_iff_exists'.mp unknown.2
    rw [endLabel_known queued label] at found
    have counted := job?_of_settle found
    rw [endCounted_job? ((reported_job? ..).trans queued)] at counted
    split at counted
    next same =>
      subst same
      exact ⟨j, queued, by rwa [if_pos ⟨rfl, unknown.2⟩]⟩
    next other => exact ⟨k, (reported_job? ..).symm.trans counted, by rw [if_neg fun h => other h.1]⟩

theorem afterEnd_cancelled {j k : Job} {o : LabelOutcome} (after : j.afterEnd o = some k) : k.cancelled = j.cancelled := by
  unfold Job.afterEnd at after
  split at after
  · split at after
    · cases after
    · cases after
      rfl
  · cases after
    rfl

/-- A label end cancels no job (R73). -/
theorem endLabel_isCancelled {s : State} {job copy n : Nat} {o : LabelOutcome} {mismatch : Bool}
    (after : (s.endLabel job copy o mismatch).isCancelled n = true) : s.isCancelled n = true := by
  obtain ⟨k, found, flag⟩ := (Option.any_eq_true ..).mp after
  obtain ⟨j, before, was⟩ := endLabel_job? found
  rw [State.isCancelled, before, Option.any_some, ← flag]
  split at was
  · exact (afterEnd_cancelled was).symm
  · rw [was]

/-- A label end gives up its own record and those of labels no longer in flight, by their names; labels in the ring or in hand stay
(R73, R99). -/
theorem endLabel_labels_keep (s : State) (job copy : Nat) (o : LabelOutcome) (mismatch : Bool) : ∃ keep : Nat → Nat → Bool,
    (s.endLabel job copy o mismatch).labels = s.labels.filter (fun l => keep l.job l.copy) ∧ keep job copy = false ∧
      ∀ a b, ¬ (a = job ∧ b = copy) → s.inRing a b = true ∨ s.inHand a b = true → keep a b = true := by
  by_cases unknown : s.job? job = none ∨ s.label? job copy = none
  · rw [endLabel_unknown unknown]
    exact ⟨fun a b => !(a == job && b == copy), rfl, by simp, fun a b other _ => by simpa [imp_iff_not_or] using other⟩
  · push Not at unknown
    obtain ⟨j, queued⟩ := Option.ne_none_iff_exists'.mp unknown.1
    obtain ⟨l, label⟩ := Option.ne_none_iff_exists'.mp unknown.2
    have parts : ∃ t : State, t.ring = s.ring ∧ t.hand = s.hand ∧ t.labels = (s.dropLabel job copy).labels ∧
        s.endLabel job copy o mismatch = t.settle := by
      refine ⟨_, ?_, ?_, ?_, endLabel_known queued label o mismatch⟩ <;> rw [endCounted_frame, placeCompletion_frame] <;> rfl
    obtain ⟨t, ring, hand, labels, ended⟩ := parts
    refine ⟨fun a b => t.holdsLabel a b && !(a == job && b == copy), ?_, by simp, fun a b other held => ?_⟩
    · rw [ended, settle_labels, labels]
      exact List.filter_filter
    · have stays : t.holdsLabel a b = true := by
        simp only [State.holdsLabel, State.inRing, State.inHand, ring, hand] at held ⊢
        obtain held | held := held <;> simp [held]
      simpa [stays, imp_iff_not_or] using other

/-- A label end leaves at the head the other labels (R154). -/
theorem endLabel_heads (s : State) (job copy : Nat) (o : LabelOutcome) (mismatch : Bool) :
    (s.endLabel job copy o mismatch).engine.heads = s.engine.heads.filter fun h => !(h.job == job && h.copy == copy) := by
  by_cases unknown : s.job? job = none ∨ s.label? job copy = none
  · rw [endLabel_unknown unknown]
    rfl
  · push Not at unknown
    obtain ⟨j, queued⟩ := Option.ne_none_iff_exists'.mp unknown.1
    obtain ⟨l, label⟩ := Option.ne_none_iff_exists'.mp unknown.2
    rw [endLabel_known queued label, settle_engine, endCounted_frame, placeCompletion_frame]
    rfl

/-- The report of a label that ends is the last on its origin port's list (R76, R154). -/
theorem endLabel_reports {s : State} {job copy : Nat} {j : Job} {l : LabelRecord} (queued : s.job? job = some j)
    (found : s.label? job copy = some l) (o : LabelOutcome) (mismatch : Bool) :
    ((s.endLabel job copy o mismatch).port j.origin).reports.getLast? = some (.completion (completionOf j l o mismatch)) := by
  have counted (t : State) (q : Port) : ((t.endCounted job j o).port q).reports = (t.port q).reports := by
    unfold State.endCounted
    dsimp only
    split
    · rw [leaveQueue_port]
      split <;> rfl
    · split <;> rfl
  rw [endLabel_known queued found, settle_reports, counted, labelOff_port]
  exact placeCompletion_last s (completionOf j l o mismatch)

/-! ### A cancelled job whose labels are not all of its copies left -/

/-- How many label records are of a job (R99). -/
def State.labelsOf (s : State) (n : Nat) : Nat := (s.labels.filter fun l => l.job = n).length

/-- A cancelled job is queued, and its labels are no more than its copies not completed (R73). -/
def State.cancelledDue (s : State) (n : Nat) : Prop := ∃ j, s.job? n = some j ∧ j.cancelled = true ∧ j.completed + s.labelsOf n ≤ j.total

theorem labelsOf_le {s t : State} (fewer : t.labels.Sublist s.labels) (n : Nat) : t.labelsOf n ≤ s.labelsOf n :=
  (fewer.filter _).length_le

/-- A label that ends leaves its job with fewer label records (R73). -/
theorem labelsOf_endLabel_lt {s : State} {job copy : Nat} {l : LabelRecord} (found : s.label? job copy = some l) (o : LabelOutcome)
    (mismatch : Bool) : (s.endLabel job copy o mismatch).labelsOf job < s.labelsOf job := by
  have named := List.find?_some found
  simp only [Bool.and_eq_true, beq_iff_eq] at named
  refine ((endLabel_labels s job copy o mismatch).filter _).length_le.trans_lt ?_
  rw [List.filter_filter, State.labelsOf]
  rw [List.filter_congr (q := fun l : LabelRecord => (fun l : LabelRecord => !(l.job == job && l.copy == copy)) l && decide (l.job = job))
    fun _ _ => Bool.and_comm .., ← List.filter_filter]
  exact List.length_filter_lt_length_iff_exists.mpr
    ⟨l, List.mem_filter.mpr ⟨List.mem_of_find?_eq_some found, by simp [named]⟩, by simp [named]⟩

theorem labelsOf_pos {s : State} {n : Nat} (flies : ∃ m ∈ s.labels, m.job = n) : 0 < s.labelsOf n := by
  obtain ⟨m, mem, job⟩ := flies
  exact List.length_pos_of_mem (List.mem_filter.mpr ⟨mem, by simpa using job⟩)

/-- A label end leaves such a job queued while it has a label in flight (R72, R73). -/
theorem endLabel_due {s : State} {job copy n : Nat} {o : LabelOutcome} {mismatch : Bool} (due : s.cancelledDue n)
    (flies : ∃ m ∈ (s.endLabel job copy o mismatch).labels, m.job = n) : (s.endLabel job copy o mismatch).cancelledDue n := by
  obtain ⟨k, before, flag, room⟩ := due
  have fewer := labelsOf_le ((endLabel_labels s job copy o mismatch).trans List.filter_sublist) n
  by_cases unknown : s.job? job = none ∨ s.label? job copy = none
  · refine ⟨k, ?_, flag, by omega⟩
    rw [endLabel_unknown unknown]
    exact before
  · push Not at unknown
    obtain ⟨j, queued⟩ := Option.ne_none_iff_exists'.mp unknown.1
    obtain ⟨l, label⟩ := Option.ne_none_iff_exists'.mp unknown.2
    have less := labelsOf_endLabel_lt label o mismatch
    have some := labelsOf_pos flies
    have stays : (s.endLabel job copy o mismatch).job? n = if n = job then j.afterEnd o else s.job? n := by
      have flight := (jobInFlight_iff _ n).mpr (.inl flies)
      rw [endLabel_known queued label] at flight ⊢
      rw [settle_job? flight, endCounted_job? ((reported_job? ..).trans queued), reported_job?]
    by_cases same : n = job
    · subst same
      obtain rfl := Option.some.inj (before.symm.trans queued)
      rw [if_pos rfl, Job.afterEnd] at stays
      split at stays
      · rw [if_neg (by omega)] at stays
        exact ⟨_, stays, flag, by dsimp only; omega⟩
      · exact ⟨k, stays, flag, by omega⟩
    · rw [if_neg same] at stays
      exact ⟨k, stays.trans before, flag, by omega⟩

/-! ### The labels at the head ended, one after the other -/

/-- From one state to the next some labels at the head have ended (R154). -/
structure State.Ended (ends : List HeadLabel) (s t : State) : Prop where
  ring      : t.ring = s.ring
  hand      : t.hand = s.hand
  redo      : t.redo = s.redo
  heads     : ∀ h ∈ t.engine.heads, h ∈ s.engine.heads ∧ ∀ x ∈ ends, ¬ (h.job = x.job ∧ h.copy = x.copy)
  labels    : t.labels ⊆ s.labels
  found     : ∀ {job copy l}, t.label? job copy = some l → s.label? job copy = some l
  kept      : ∀ {job copy}, (∀ x ∈ ends, ¬ (job = x.job ∧ copy = x.copy)) → s.inRing job copy = true ∨ s.inHand job copy = true →
    t.label? job copy = s.label? job copy
  cancelled : ∀ {n}, t.isCancelled n = true → s.isCancelled n = true
  due       : ∀ {n}, s.cancelledDue n → (∃ m ∈ t.labels, m.job = n) → t.cancelledDue n

theorem ended_endAtHead (s : State) (h : HeadLabel) (o : LabelOutcome) : State.Ended [h] s (s.endAtHead h o) := by
  obtain ⟨keep, labels, gone, stays⟩ := endLabel_labels_keep s h.job h.copy o (s.mismatch h)
  have label? (job copy : Nat) : (s.endAtHead h o).label? job copy = if keep job copy then s.label? job copy else none :=
    (congrArg (List.find? _) labels).trans (find?_label_filter keep s.labels job copy)
  constructor
  case ring => rw [State.endAtHead, endLabel_frame]; rfl
  case hand => rw [State.endAtHead, endLabel_frame]; rfl
  case redo => exact endAtHead_redo s h o
  case heads =>
    intro x mem
    have among : x ∈ (s.endLabel h.job h.copy o (s.mismatch h)).engine.heads := mem
    rw [endLabel_heads, List.mem_filter] at among
    exact ⟨among.1, fun y only => by simpa [List.mem_singleton.mp only, imp_iff_not_or] using among.2⟩
  case labels => exact ((endAtHead_labels s h o).trans List.filter_sublist).subset
  case found =>
    intro job copy l found
    rw [label?] at found
    split at found
    · exact found
    · cases found
  case kept =>
    intro job copy other held
    rw [label?, if_pos (stays job copy (other h (List.mem_singleton_self h)) held)]
  case cancelled => exact endLabel_isCancelled
  case due => exact endLabel_due

theorem State.Ended.refl (s : State) : State.Ended [] s s :=
  ⟨rfl, rfl, rfl, fun _ mem => ⟨mem, by simp⟩, fun _ => id, id, fun _ _ => rfl, id, fun due _ => due⟩

theorem State.Ended.cons {h : HeadLabel} {heads : List HeadLabel} {s t u : State} (first : State.Ended [h] s t)
    (rest : State.Ended heads t u) : State.Ended (h :: heads) s u where
  ring := rest.ring.trans first.ring
  hand := rest.hand.trans first.hand
  redo := rest.redo.trans first.redo
  heads x mem := by
    obtain ⟨among, later⟩ := rest.heads x mem
    obtain ⟨before, now⟩ := first.heads x among
    exact ⟨before, List.forall_mem_cons.mpr ⟨now h (List.mem_singleton_self h), later⟩⟩
  labels := fun _ mem => first.labels (rest.labels mem)
  found := first.found ∘ rest.found
  kept other held := by
    obtain ⟨now, later⟩ := List.forall_mem_cons.mp other
    rw [rest.kept later, first.kept (by simpa using now) held]
    simpa only [State.inRing, State.inHand, first.ring, first.hand] using held
  cancelled := first.cancelled ∘ rest.cancelled
  due was flies := rest.due (first.due was (flies.imp fun _ m => ⟨rest.labels m.1, m.2⟩)) flies

theorem ended_foldl (o : HeadLabel → LabelOutcome) (heads : List HeadLabel) (s : State) :
    State.Ended heads s (heads.foldl (fun t h => t.endAtHead h (o h)) s) := by
  induction heads generalizing s with
  | nil => exact .refl s
  | cons h heads ih => exact (ended_endAtHead s h (o h)).cons (ih _)

/-! ### The labels in the ring and in hand, in order -/

theorem inRing_iff {s : State} {job copy : Nat} : s.inRing job copy = true ↔ ∃ i, (s.buffer i).holds job copy = true := by
  rw [State.inRing, List.any_eq_true]
  constructor
  · rintro ⟨b, mem, holds⟩
    obtain ⟨i, lt, rfl⟩ := Vector.mem_iff_getElem.mp (Vector.mem_toList_iff.mp mem)
    exact ⟨⟨i, lt⟩, holds⟩
  · rintro ⟨i, holds⟩
    exact ⟨s.buffer i, Vector.mem_toList_iff.mpr (Vector.getElem_mem i.isLt), holds⟩

/-- The label of the band some places behind the take position, if there is one (R115). -/
def State.labelAt (s : State) (k : Fin 8) : Option (Nat × Nat) :=
  if (s.buffer (s.ring.take + k)).state = .free then none else (s.buffer (s.ring.take + k)).record.map fun r => (r.job, r.copy)

theorem labelAt_eq_some {s : State} {k : Fin 8} {job copy : Nat} :
    s.labelAt k = some (job, copy) ↔ (s.buffer (s.ring.take + k)).holds job copy = true := by
  unfold State.labelAt Buffer.holds
  split
  next free => simp [free]
  next held => simp [held, Option.any_eq_true]

theorem ringLabels_eq (s : State) : s.ringLabels = (List.finRange 8).filterMap s.labelAt := rfl

theorem mem_ringLabels {s : State} {job copy : Nat} : (job, copy) ∈ s.ringLabels ↔ s.inRing job copy = true := by
  rw [ringLabels_eq, List.mem_filterMap, inRing_iff]
  constructor
  · rintro ⟨k, -, held⟩
    exact ⟨_, labelAt_eq_some.mp held⟩
  · rintro ⟨i, holds⟩
    exact ⟨i - s.ring.take, List.mem_finRange _, labelAt_eq_some.mpr (by rwa [add_sub_cancel])⟩

/-- The labels a flush looks at: those with a band in the ring, then the one in hand (R115). -/
def State.flightLabels (s : State) : List (Nat × Nat) := s.ringLabels ++ (s.hand.map fun h => (h.job, h.copy)).toList

theorem mem_flightLabels {s : State} {job copy : Nat} :
    (job, copy) ∈ s.flightLabels ↔ s.inRing job copy = true ∨ s.inHand job copy = true := by
  rw [State.flightLabels, List.mem_append, mem_ringLabels]
  simp [State.inHand, Option.any_eq_true]

/-- Those labels, each once, stand in the order of their oldest bands, one with no band in the ring last (R115). -/
theorem flightLabels_order (s : State) : (firstOnly s.flightLabels).Pairwise (heldBefore s.labelAt (List.finRange 8)) := by
  have bands : (firstOnly s.ringLabels).Pairwise _ := firstOnly_filterMap_order s.labelAt (List.pairwise_lt_finRange 8)
  unfold State.flightLabels
  cases s.hand with
  | none => simpa using bands
  | some h =>
    refine firstOnly_concat_pairwise bands fun new x mem => ?_
    obtain ⟨k, among, at_k⟩ := List.mem_filterMap.mp mem
    exact ⟨k, among, at_k, fun i early _ held => new (List.mem_filterMap.mpr ⟨i, early, held⟩)⟩

/-! ### The redo entries of a flush -/

theorem redoEntry?_eq_some {s : State} {job copy : Nat} {e : RedoEntry} : s.redoEntry? job copy = some e ↔
    e.job = job ∧ e.copy = copy ∧ ∃ l, s.label? job copy = some l ∧ e.values = l.values := by
  rw [State.redoEntry?, Option.map_eq_some_iff]
  constructor
  · rintro ⟨l, found, rfl⟩
    exact ⟨rfl, rfl, l, found, rfl⟩
  · rintro ⟨rfl, rfl, l, found, values⟩
    exact ⟨l, found, by rw [← values]⟩

/-- The redo entries a flush makes beside that of the label ended with it (R115). -/
def State.laterEntries (s : State) (first : Option RedoEntry) : List RedoEntry :=
  ((firstOnly s.flightLabels).filter fun i =>
    !(s.isCancelled i.1) && !(s.atHead i.1 i.2) && first.all fun e => !(e.job == i.1 && e.copy == i.2)).filterMap fun i =>
      s.redoEntry? i.1 i.2

theorem flushEntries_eq (s : State) (first : Option RedoEntry) : s.flushEntries first = first.toList ++ s.laterEntries first := rfl

/-- A later entry is of a label in the ring or in hand, not at the head, of a job not cancelled, and not the first entry's (R115). -/
theorem mem_laterEntries {s : State} {first : Option RedoEntry} {e : RedoEntry} : e ∈ s.laterEntries first ↔
    (s.inRing e.job e.copy = true ∨ s.inHand e.job e.copy = true) ∧ s.isCancelled e.job = false ∧ s.atHead e.job e.copy = false ∧
      (∀ x, first = some x → ¬ (x.job = e.job ∧ x.copy = e.copy)) ∧ ∃ l, s.label? e.job e.copy = some l ∧ e.values = l.values := by
  have others : (first.all fun x => !(x.job == e.job && x.copy == e.copy)) = true ↔
      ∀ x, first = some x → ¬ (x.job = e.job ∧ x.copy = e.copy) := by
    cases first with
    | none => simp
    | some y =>
      simp only [Option.all_some, Option.some.injEq, forall_eq', Bool.not_eq_true', ← Bool.not_eq_true, Bool.and_eq_true, beq_iff_eq]
  rw [State.laterEntries, List.mem_filterMap]
  constructor
  · rintro ⟨⟨job, copy⟩, mem, entry⟩
    obtain ⟨rfl, rfl, label⟩ := redoEntry?_eq_some.mp entry
    obtain ⟨among, passes⟩ := List.mem_filter.mp mem
    simp only [Bool.and_eq_true, Bool.not_eq_true', others] at passes
    exact ⟨mem_flightLabels.mp (mem_firstOnly.mp among), passes.1.1, passes.1.2, passes.2, label⟩
  · rintro ⟨flies, live, off, other, label⟩
    refine ⟨(e.job, e.copy), List.mem_filter.mpr ⟨mem_firstOnly.mpr (mem_flightLabels.mpr flies), ?_⟩,
      redoEntry?_eq_some.mpr ⟨rfl, rfl, label⟩⟩
    simp only [live, off, others.mpr other, Bool.not_false, Bool.and_self]

/-- What holds of the names of labels in their order holds of their later entries. -/
theorem laterEntries_pairwise {s : State} {first : Option RedoEntry} {R : Nat × Nat → Nat × Nat → Prop}
    (order : (firstOnly s.flightLabels).Pairwise R) :
    (s.laterEntries first).Pairwise fun x y => R (x.job, x.copy) (y.job, y.copy) := by
  refine List.pairwise_filterMap.mpr ((order.filter _).imp fun rel x entry y entry' => ?_)
  obtain ⟨job, copy, -⟩ := redoEntry?_eq_some.mp entry
  obtain ⟨job', copy', -⟩ := redoEntry?_eq_some.mp entry'
  rwa [job, copy, job', copy']

theorem flushEntries_nodup (s : State) (first : Option RedoEntry) :
    ((s.flushEntries first).map fun e => (e.job, e.copy)).Nodup := by
  have later : ((s.laterEntries first).map fun e => (e.job, e.copy)).Nodup :=
    List.pairwise_map.mpr (laterEntries_pairwise (firstOnly_nodup _))
  rw [flushEntries_eq, List.map_append]
  cases first with
  | none => exact later
  | some x =>
    refine List.nodup_cons.mpr ⟨fun mem => ?_, later⟩
    obtain ⟨e, among, same⟩ := List.mem_map.mp mem
    obtain ⟨-, -, -, other, -⟩ := mem_laterEntries.mp among
    exact other x rfl ⟨(congrArg Prod.fst same).symm, (congrArg Prod.snd same).symm⟩

theorem flushEntries_order (s : State) (first : Option RedoEntry) : (s.flushEntries first).Pairwise fun x y => first = some x ∨
    ∃ k, (s.buffer (s.ring.take + k)).holds x.job x.copy = true ∧
      ∀ i, i ≤ k → ¬ (s.buffer (s.ring.take + i)).holds y.job y.copy = true := by
  rw [flushEntries_eq]
  refine List.pairwise_append.mpr ⟨?_, ?_, ?_⟩
  · cases first <;> simp
  · refine (laterEntries_pairwise (flightLabels_order s)).imp ?_
    rintro x y ⟨k, -, at_k, free⟩
    exact .inr ⟨k, labelAt_eq_some.mp at_k, fun i le holds => free i (List.mem_finRange i) le (labelAt_eq_some.mpr holds)⟩
  · intro x head y _
    exact .inl (by simpa using head)

/-! ### The entry into FAULT -/

/-- The redo entry of the first label at the head that ends FAULTED (R151). -/
def State.faultedEntry (s : State) : Option RedoEntry :=
  (s.engine.heads.find? fun h => s.faultOutcome h = .faulted).bind fun h => s.redoEntry? h.job h.copy

/-- The labels at the head ended as an entry into FAULT ends them (R151, R154). -/
def State.headsFaulted (s : State) : State := s.engine.heads.foldl (fun t h => t.endAtHead h (s.faultOutcome h)) s

theorem ended_headsFaulted (s : State) : State.Ended s.engine.heads s s.headsFaulted := ended_foldl s.faultOutcome _ s

theorem headsFaulted_heads (s : State) : s.headsFaulted.engine.heads = [] := by
  refine List.eq_nil_iff_forall_not_mem.mpr fun h mem => ?_
  obtain ⟨before, ended⟩ := (ended_headsFaulted s).heads h mem
  exact ended h before ⟨rfl, rfl⟩

theorem faultedEntry_spec {s : State} {e : RedoEntry} (entry : s.faultedEntry = some e) :
    s.atHead e.job e.copy = true ∧ s.isCancelled e.job = false ∧ ∃ l, s.label? e.job e.copy = some l ∧ e.values = l.values := by
  obtain ⟨h, found, made⟩ := Option.bind_eq_some_iff.mp entry
  obtain ⟨job, copy, label⟩ := redoEntry?_eq_some.mp made
  have faulted : s.faultOutcome h = .faulted := by simpa using List.find?_some found
  refine ⟨List.any_eq_true.mpr ⟨h, List.mem_of_find?_eq_some found, by simp [job, copy]⟩, ?_, by rwa [job, copy]⟩
  rw [job]
  unfold State.faultOutcome at faulted
  split at faulted
  · cases faulted
  · split at faulted
    · cases faulted
    next live => simpa using live

/-- The redo entries of an entry into FAULT. -/
def State.faultEntries (s : State) : List RedoEntry := s.headsFaulted.flushEntries s.faultedEntry

/-- A label in the ring or in hand and not at the head, of a job not cancelled, goes to the redo list (R115, R151). -/
theorem mem_faultEntries_of_flying {s : State} {job copy : Nat} {l : LabelRecord} (found : s.label? job copy = some l)
    (live : s.isCancelled job = false) (flies : s.inRing job copy = true ∨ s.inHand job copy = true) (off : s.atHead job copy = false) :
    ({ job := job, copy := copy, values := l.values } : RedoEntry) ∈ s.faultEntries := by
  have ended := ended_headsFaulted s
  have others (h : HeadLabel) (mem : h ∈ s.engine.heads) : ¬ (job = h.job ∧ copy = h.copy) := by
    rintro ⟨rfl, rfl⟩
    simpa using List.any_eq_false.mp off h mem
  refine List.mem_append_right _ (mem_laterEntries.mpr ⟨?_, ?_, ?_, ?_, l, (ended.kept others flies).trans found, rfl⟩)
  · simpa only [State.inRing, State.inHand, ended.ring, ended.hand] using flies
  · exact Bool.eq_false_iff.mpr fun flag => by simp [ended.cancelled flag] at live
  · rw [State.atHead, headsFaulted_heads]
    rfl
  · rintro x entry ⟨rfl, rfl⟩
    simp [(faultedEntry_spec entry).1] at off

/-- Every redo entry of an entry into FAULT is of a label in flight, with its values, of a job not cancelled where no job has more labels
than copies not completed (R115). -/
theorem faultEntries_sound {s : State} {e : RedoEntry} (mem : e ∈ s.faultEntries) :
    s.holdsLabel e.job e.copy = true ∧ (∃ l, s.label? e.job e.copy = some l ∧ e.values = l.values) ∧
      ((∀ j ∈ s.queue, j.completed + s.labelsOf j.number ≤ j.total) → s.isCancelled e.job = false) := by
  have ended := ended_headsFaulted s
  obtain first | later := List.mem_append.mp mem
  · obtain ⟨head, live, label⟩ := faultedEntry_spec (by simpa using first)
    exact ⟨by rw [State.holdsLabel, head, Bool.or_true], label, fun _ => live⟩
  · obtain ⟨flies, live, -, -, l, found, values⟩ := mem_laterEntries.mp later
    simp only [State.inRing, State.inHand, ended.ring, ended.hand] at flies
    refine ⟨?_, ⟨l, ended.found found, values⟩, fun room => ?_⟩
    · simp only [State.holdsLabel, State.inRing, State.inHand, Bool.or_eq_true]
      exact .inl flies.symm
    · refine Bool.eq_false_iff.mpr fun flag => ?_
      obtain ⟨j, queued, cancelled⟩ := (Option.any_eq_true ..).mp flag
      have due : s.cancelledDue e.job := ⟨j, queued, cancelled, by
        have bound := room j (List.mem_of_find?_eq_some queued)
        rwa [job?_number queued] at bound⟩
      have named := List.find?_some found
      simp only [Bool.and_eq_true, beq_iff_eq] at named
      obtain ⟨k, still, gone, -⟩ := ended.due due ⟨l, List.mem_of_find?_eq_some found, named.1⟩
      rw [State.isCancelled, still, Option.any_some, gone] at live
      cases live

/-- Behind the label ended at the head the entries stand in the order of their labels' oldest bands (R115). -/
theorem faultEntries_order (s : State) : s.faultEntries.Pairwise fun x y => s.atHead x.job x.copy = true ∨
    ∃ k, (s.buffer (s.ring.take + k)).holds x.job x.copy = true ∧
      ∀ i, i ≤ k → ¬ (s.buffer (s.ring.take + i)).holds y.job y.copy = true := by
  have order := flushEntries_order s.headsFaulted s.faultedEntry
  simp only [State.buffer, (ended_headsFaulted s).ring] at order
  exact order.imp fun either => either.imp_left fun entry => (faultedEntry_spec entry).1

/-- One label at the head ended by an entry into FAULT has its report last on its origin port's list (R154). -/
theorem headsFaulted_report {s : State} {h : HeadLabel} {l : LabelRecord} {j : Job} (heads : s.engine.heads = [h])
    (found : s.label? h.job h.copy = some l) (queued : s.job? h.job = some j) :
    (s.headsFaulted.port j.origin).reports.getLast? = some (.completion (completionOf j l (s.faultOutcome h) (s.mismatch h))) := by
  have single : s.headsFaulted = s.endAtHead h (s.faultOutcome h) := by rw [State.headsFaulted, heads]; rfl
  rw [single]
  exact endLabel_reports queued found _ _

theorem postAll_reports (s : State) (e : Event) (q : Port) : ((s.postAll e).port q).reports = (s.port q).reports := by
  unfold State.postAll
  refine foldl_keeps (fun s t => (t.port q).reports = (s.port q).reports) (fun _ => rfl) (fun h k => k.trans h) (fun s p => ?_) _ s
  by_cases same : p = q
  · subst same
    rw [State.post, port_onPort_self, portPost_reports]
  · rw [State.post, port_onPort_ne _ _ same]

/-- An entry into FAULT in parts (R151). -/
theorem enterFault_eq (s : State) : s.enterFault =
    (((s.onEngine Engine.motorStop).headsFaulted.flush (s.onEngine Engine.motorStop).faultedEntry).onEngine
      (·.faultCleared (s.onEngine Engine.motorStop).sensorOffset)).postAll .engineFault := rfl

/-- An entry into FAULT puts its entries before the redo list, and adds no report to those of the labels ended (R115, R151). -/
theorem enterFault_redo (s : State) : s.enterFault.redo = (s.onEngine Engine.motorStop).faultEntries ++ s.redo := by
  rw [enterFault_eq, postAll_redo, onEngine_redo, flush_frame, (ended_headsFaulted _).redo]
  rfl

theorem enterFault_reports (s : State) (q : Port) :
    (s.enterFault.port q).reports = ((s.onEngine Engine.motorStop).headsFaulted.port q).reports := by
  rw [enterFault_eq, postAll_reports]
  exact settle_reports _ q

/-- The outcome of a label at the head all of whose lines are burned, or some are not (R151, R154). -/
theorem faultOutcome_of_due {s : State} {h : HeadLabel} {j : Job} (queued : s.job? h.job = some j)
    (due : h.out = true ∨ h.done < h.length) :
    s.faultOutcome h = if h.out then .printed else if j.cancelled then .voided else .faulted := by
  have flag : s.isCancelled h.job = j.cancelled := by rw [State.isCancelled, queued]; rfl
  unfold State.faultOutcome
  cases out : h.out with
  | true => simp
  | false =>
    have lines : ¬ h.length ≤ h.done := not_le.mpr (due.resolve_left (by simp [out]))
    simp [lines, flag]

/-- Where the lid's opening stops the engine, an entry into FAULT is all it does (R150, R151). -/
theorem exec_lidSwitchOpen {s : State} (runs : s.held = false) (sound : s.engine.faults = .none)
    (enters : s.engine.mode.entersFault = true) :
    exec .lidSwitchOpen s = .next (s.onEngine fun e => { e with faults := s.engine.faults.put .headOpen true }).enterFault := by
  have exec : exec .lidSwitchOpen s = .next (s.joinFaults (s.engine.faults.put .headOpen true)) :=
    running_of_not_held runs fun s => s.joinFaults (s.engine.faults.put .headOpen true)
  have joins : (s.engine.faults.isEmpty && !(s.engine.faults.put .headOpen true).isEmpty && s.engine.mode.entersFault) = true := by
    rw [sound, enters]
    rfl
  rw [exec, State.joinFaults]
  exact congrArg _ (if_pos joins)

/-- Settles O45: the entries a flush makes, in their order, after the ends of the labels at the head. -/
theorem faultPutsLabelsOnTheRedoList : Obligations.FaultPutsLabelsOnTheRedoList := by
  intro s runs sound enters bandAt
  set faulty := s.onEngine fun e => { e with faults := s.engine.faults.put .headOpen true }
  set stopped := faulty.onEngine Engine.motorStop
  refine ⟨_, stopped.faultEntries, exec_lidSwitchOpen runs sound enters, enterFault_redo faulty,
    fun l job copy found live flies off => mem_faultEntries_of_flying (s := stopped) found live flies off,
    fun h l heads out lines live found => ?_,
    ⟨flushEntries_nodup .., faultEntries_order stopped, fun e mem => faultEntries_sound (s := stopped) mem⟩,
    fun h l j heads due found queued => ?_⟩
  · have faulted : stopped.faultOutcome h = .faulted := by
      have waits : ¬ h.length ≤ h.done := not_le.mpr lines
      have flag : stopped.isCancelled h.job = false := live
      simp [State.faultOutcome, out, waits, flag]
    have entry : stopped.faultedEntry = some { job := h.job, copy := h.copy, values := l.values } := by
      have only : stopped.engine.heads = [h] := heads
      have label : stopped.label? h.job h.copy = some l := found
      simp [State.faultedEntry, only, faulted, State.redoEntry?, label]
    rw [State.faultEntries, flushEntries_eq, entry]
    rfl
  · have report := headsFaulted_report (s := stopped) heads found queued
    refine ⟨_, (congrArg List.getLast? (enterFault_reports faulty j.origin)).trans report, rfl, rfl, rfl, rfl, ?_⟩
    exact faultOutcome_of_due (s := stopped) queued due

end Sys2Proof.Machine
end

section
/-! PROOFS. What a field writes: the dot write rule, a field's frame carried to the label, its planes and its content (O48). -/

namespace Sys2Proof.Machine

/-! ### The dot write rule (R106) -/

theorem writeDot_of_below {c : Cell} {rank : Nat} (below : rank < c.rank) (planes : Planes) (clears : Bool) :
    writeDot c planes clears rank = c := if_pos below

/-- A field not ranked below the dot writes it: its planes are added, or removed by a clearing ink (R106). -/
theorem writeDot_of_not_below {c : Cell} {rank : Nat} (above : c.rank ≤ rank) (planes : Planes) (clears : Bool) :
    (writeDot c planes clears rank).rank = rank ∧ ∀ k, k < 4 → (writeDot c planes clears rank).planes.getLsbD k =
      if clears then c.planes.getLsbD k && !planes.getLsbD k else c.planes.getLsbD k || planes.getLsbD k := by
  rw [writeDot, if_neg (not_lt.mpr above)]
  refine ⟨rfl, fun k lt => ?_⟩
  cases clears <;> simp [lt]

/-! ### A field's frame on the label (R23) -/

/-- A box position is read back as the frame dot that rotation carries there (R23). -/
theorem unrotate_eq_some {r : Rotation} {w h col line u v : Nat} :
    unrotate r (w, h) col line = some (u, v) ↔ u < w ∧ v < h ∧ rotate r (w, h) u v = (col, line) := by
  cases r <;> simp only [unrotate, rotate, Option.ite_none_right_eq_some, Option.some.injEq, Prod.mk.injEq] <;> omega

/-- A frame dot is the field's at the label dot it is carried to (R23). -/
theorem inks_carried (d : DrawnField) {u v : Nat} (col : u < d.drawn.frame.1) (line : v < d.drawn.frame.2) :
    d.inks (d.x + (rotate d.rotation d.drawn.frame u v).1) (d.y + (rotate d.rotation d.drawn.frame u v).2) = d.drawn.ink u v := by
  simp only [DrawnField.inks, Nat.le_add_right, decide_true, Bool.true_and, Nat.add_sub_cancel_left]
  have back : unrotate d.rotation d.drawn.frame (rotate d.rotation d.drawn.frame u v).1 (rotate d.rotation d.drawn.frame u v).2 =
    some (u, v) := unrotate_eq_some.mpr ⟨col, line, rfl⟩
  rw [back]

/-- An ink dot of a field on the label is carried there from its frame (R23). -/
theorem carried_of_inks {d : DrawnField} {x y : Nat} (ink : d.inks x y = true) : ∃ u v, u < d.drawn.frame.1 ∧ v < d.drawn.frame.2 ∧
    x = d.x + (rotate d.rotation d.drawn.frame u v).1 ∧ y = d.y + (rotate d.rotation d.drawn.frame u v).2 := by
  simp only [DrawnField.inks, Bool.and_eq_true, decide_eq_true_eq] at ink
  obtain ⟨⟨right, below⟩, dot⟩ := ink
  cases found : unrotate d.rotation d.drawn.frame (x - d.x) (y - d.y) with
  | none => simp [found] at dot
  | some uv =>
    obtain ⟨col, line, carried⟩ := (unrotate_eq_some (w := d.drawn.frame.1) (h := d.drawn.frame.2)).mp found
    rw [Prod.mk.eta] at carried
    exact ⟨uv.1, uv.2, col, line, by rw [carried]; omega, by rw [carried]; omega⟩

/-! ### The planes a field touches (R104, R105) -/

/-- A STAMP touches its acting port's stamp planes under the port's mask, another field its own planes under it (R104, R105). -/
theorem effectivePlanes_getLsbD (snapshot : Vector PortPlanes 4) (j : Job) (f : Field) {k : Nat} (lt : k < 4) :
    (effectivePlanes snapshot j f).getLsbD k =
      ((if f.part.isStamp then snapshot[actingPort j f].stamp.getLsbD k else f.planeByte.getLsbD k) &&
        snapshot[actingPort j f].mask.getLsbD k) := by
  unfold effectivePlanes
  cases f.part.isStamp <;> simp [lt]

/-! ### Digits (R28, R29) -/

/-- The number a text of digits stands for. -/
def textNumber (t : Text) : Nat := t.foldl (fun a ch => 10 * a + (ch.toNat - 48)) 0

theorem toNat_digit {x : Nat} (digit : x ≤ 9) : (BitVec.ofNat 8 (48 + x)).toNat = 48 + x := by
  rw [BitVec.toNat_ofNat]
  omega

theorem toNat_digitChar (d : Nat) : (digitChar d).toNat = 48 + d % 10 := toNat_digit (by omega)

@[simp] theorem length_digitsOf (k n : Nat) : (digitsOf k n).length = k := by
  induction k generalizing n with
  | zero => rfl
  | succ k ih => simp [digitsOf, ih]

theorem digitsOf_digits {k n : Nat} {ch : Byte} (mem : ch ∈ digitsOf k n) : 48 ≤ ch.toNat ∧ ch.toNat ≤ 57 := by
  induction k generalizing n with
  | zero => cases mem
  | succ k ih =>
    obtain early | last := List.mem_append.mp mem
    · exact ih early
    · rw [List.mem_singleton.mp last, toNat_digitChar]
      omega

/-- The last digits of a number stand for its remainder (R28). -/
theorem textNumber_digitsOf (k n : Nat) : textNumber (digitsOf k n) = n % 10 ^ k := by
  induction k generalizing n with
  | zero => simp [textNumber, digitsOf, Nat.mod_one]
  | succ k ih =>
    have step : textNumber (digitsOf (k + 1) n) = 10 * textNumber (digitsOf k (n / 10)) + ((digitChar n).toNat - 48) := by
      simp [textNumber, digitsOf]
    rw [step, ih, toNat_digitChar, Nat.pow_succ', Nat.mod_mul]
    omega

theorem digitsOf_head? (k n : Nat) : (digitsOf (k + 1) n).head? = some (digitChar (n / 10 ^ k)) := by
  induction k generalizing n with
  | zero => simp [digitsOf]
  | succ k ih =>
    rw [digitsOf, List.head?_append, ih, Nat.div_div_eq_div_mul, ← Nat.pow_succ']
    rfl

/-- A number from 1 to 9,999 has as many digits as counted, the first not 0. -/
theorem digitCount_spec {n : Nat} (lo : 1 ≤ n) (hi : n < 10000) : ∃ k, digitCount n = k + 1 ∧ 10 ^ k ≤ n ∧ n < 10 ^ (k + 1) := by
  unfold digitCount
  split
  · exact ⟨0, rfl, by omega, by omega⟩
  · split
    · exact ⟨1, rfl, by omega, by omega⟩
    · split
      · exact ⟨2, rfl, by omega, by omega⟩
      · exact ⟨3, rfl, by omega, by omega⟩

/-- A number written without leading zeros (R29). -/
theorem digitsOf_digitCount {n : Nat} (lo : 1 ≤ n) (hi : n < 10000) :
    textNumber (digitsOf (digitCount n) n) = n ∧ (digitsOf (digitCount n) n).head? ≠ some 48#8 := by
  obtain ⟨k, count, least, most⟩ := digitCount_spec lo hi
  rw [textNumber_digitsOf, count, digitsOf_head?]
  refine ⟨Nat.mod_eq_of_lt most, fun zero => ?_⟩
  have first : 1 ≤ n / 10 ^ k := (Nat.one_le_div_iff (by positivity)).mpr least
  have digit : n / 10 ^ k < 10 := Nat.div_lt_of_lt_mul (by rwa [← Nat.pow_succ])
  have char := congrArg BitVec.toNat (Option.some.inj zero)
  rw [toNat_digitChar, Nat.mod_eq_of_lt digit] at char
  change 48 + n / 10 ^ k = 48 at char
  omega

/-! ### What a field holds (R7, R22) -/

/-- In a list of values by name, each name once, the value of a name is found by it. -/
theorem find?_of_nodup {α β : Type} [DecidableEq β] {l : List α} {name : α → β} (once : (l.map name).Nodup) {x : α} (mem : x ∈ l) :
    l.find? (fun y => name y == name x) = some x := by
  cases found : l.find? fun y => name y == name x with
  | none => exact absurd (List.find?_eq_none.mp found x mem) (by simp)
  | some y =>
    have same : name y = name x := by simpa using List.find?_some found
    rw [List.inj_on_of_nodup_map once (List.mem_of_find?_eq_some found) mem same]

theorem fieldContent_fixed {f : Field} (source : f.source = .fixed) (j : Job) (values : Values) (copy : Nat) :
    fieldContent j values copy f = (some f.fixedText, false) := by
  simp only [fieldContent, source]

theorem fieldContent_job {f : Field} (source : f.source = .job) (j : Job) (values : Values) (copy : Nat) :
    fieldContent j values copy f = ((j.data.find? (fun d => d.1 == f.number)).map (·.2), false) := by
  simp only [fieldContent, source]

theorem fieldContent_contrib {f : Field} {p : Port} (source : f.source = .contrib p) {j : Job} {c : Contribution}
    (found : j.contribs.find? (fun c => c.field == f.number) = some c) (values : Values) (copy : Nat) :
    fieldContent j values copy f = (some c.value, false) := by
  simp only [fieldContent, source, found]

theorem fieldContent_lacking {f : Field} {p : Port} (source : f.source = .contrib p) {j : Job}
    (lacks : ∀ c ∈ j.contribs, c.field ≠ f.number) (values : Values) (copy : Nat) :
    fieldContent j values copy f = (if f.number ∈ j.marks ∧ f.fallback ≠ [] then some f.fallback else none, false) := by
  have none : j.contribs.find? (fun c => c.field == f.number) = none := by simpa using lacks
  simp [fieldContent, source, none]

theorem fieldContent_counter {f : Field} {c : CounterNo} {k n : Nat} (source : f.source = .counter c k) {values : Values}
    (found : values.find? (fun v => v.1 == c) = some (c, n)) (j : Job) (copy : Nat) :
    fieldContent j values copy f = (some (digitsOf k n), decide (10 ^ k ≤ n)) := by
  simp only [fieldContent, source, found]

theorem fieldContent_copyIndex {f : Field} (source : f.source = .copyIndex) (j : Job) (values : Values) (copy : Nat) :
    fieldContent j values copy f = (some (digitsOf (digitCount copy) copy ++ 47#8 :: digitsOf (digitCount j.total) j.total), false) := by
  simp only [fieldContent, source, copyIndexText, List.append_assoc, List.singleton_append]

end Sys2Proof.Machine
end

section
/-! PROOFS. What a rendered field draws: text, boxes and stamps, then the two-of-five symbol element by element (O48). -/

namespace Sys2Proof.Machine

/-! ### Text, box and stamp (R26, R27, R38, R107) -/

/-- Each dot of a character's glyph is a block of dots (R27). -/
theorem textInk_block {font : Font} {hs vs i a b p q : Nat} {chars : Text} {c : Byte} (char : chars[i]? = some c) (col : a < font.cell.1)
    (across : p < hs) (down : q < vs) :
    textInk font hs vs chars (i * font.cell.1 * hs + a * hs + p) (b * vs + q) = glyphInk font c a b := by
  have inner : a * hs + p < font.cell.1 * hs := by nlinarith
  have place : i * font.cell.1 * hs + a * hs + p = (a * hs + p) + font.cell.1 * hs * i := by ring
  have character : (i * font.cell.1 * hs + a * hs + p) / (font.cell.1 * hs) = i := by
    rw [place, Nat.add_mul_div_left _ _ (by omega), Nat.div_eq_of_lt inner, Nat.zero_add]
  have column : (i * font.cell.1 * hs + a * hs + p) % (font.cell.1 * hs) / hs = a := by
    rw [place, Nat.add_mul_mod_self_left, Nat.mod_eq_of_lt inner, Nat.add_comm, Nat.add_mul_div_right _ _ (by omega),
      Nat.div_eq_of_lt across, Nat.zero_add]
  have line : (b * vs + q) / vs = b := by
    rw [Nat.add_comm, Nat.add_mul_div_right _ _ (by omega), Nat.div_eq_of_lt down, Nat.zero_add]
  simp only [textInk, character, column, line, char]

theorem boxInk_iff {w h b u v : Nat} : boxInk w h b u v = true ↔
    b = 0 ∨ u < b ∨ (w : Int) - b ≤ u ∨ v < b ∨ (h : Int) - b ≤ v := by
  simp only [boxInk, Bool.or_eq_true, decide_eq_true_eq]
  omega

/-- A stencil's columns run from its rows' most significant bit; a bit of 0 is ink (R12, R107). -/
theorem stampInk_iff {w h u v : Nat} {rows : List (BitVec 32)} {row : BitVec 32} (found : rows[v % rows.length]? = some row) :
    (Rendered.stamp w h rows).ink u v = true ↔ row.getLsbD (31 - u % 32) = false := by
  have bit : u % 32 < 32 := Nat.mod_lt _ (by omega)
  simp only [Rendered.ink, found, Bool.not_eq_true', BitVec.getMsbD, bit, decide_true, Bool.true_and]

theorem renderField_empty {f : Field} (part : (∃ font hs vs m, f.part = .text font hs vs m) ∨
    ∃ n w hb mod10 red readable wide, f.part = .barcode n w hb mod10 red readable wide) {content : Option Text}
    (empty : content = none ∨ content = some []) (form : Form) (short : Bool) :
    renderField form (content, short) f = ⟨.nothing, false, false⟩ := by
  obtain ⟨font, hs, vs, m, part⟩ | ⟨n, w, hb, mod10, red, readable, wide, part⟩ := part <;>
    obtain rfl | rfl := empty <;> simp only [renderField, part]

theorem renderField_text {f : Field} {font : Font} {hs vs m : Nat} (part : f.part = .text font hs vs m) {t : Text} (filled : t ≠ [])
    (form : Form) (short : Bool) :
    renderField form (some t, short) f = ⟨.text font hs vs (t.take m), short || decide (m < t.length), false⟩ := by
  cases t with
  | nil => exact absurd rfl filled
  | cons c t => simp only [renderField, part]

theorem renderField_barcode {f : Field} {n w hb red wide : Nat} {mod10 readable : Bool}
    (part : f.part = .barcode n w hb mod10 red readable wide) {t : Text} (filled : t ≠ []) (form : Form) (short : Bool) :
    renderField form (some t, short) f =
      ⟨(renderBarcode n w hb mod10 red readable wide t).1, short, (renderBarcode n w hb mod10 red readable wide t).2⟩ := by
  cases t with
  | nil => exact absurd rfl filled
  | cons c t => simp only [renderField, part]

theorem renderField_box {f : Field} {w h b : Nat} (part : f.part = .box w h b) (form : Form) (content : Option Text × Bool) :
    renderField form content f = ⟨.box w h b, false, false⟩ := by
  simp only [renderField, part]

/-- A STAMP with source CONTRIB draws for the content "Y" alone (R7, R105). -/
theorem renderField_stamp_still {f : Field} {n w h : Nat} {p : Port} (part : f.part = .stamp n w h) (source : f.source = .contrib p)
    {content : Option Text} (other : content ≠ some [89#8]) (form : Form) (short : Bool) :
    renderField form (content, short) f = ⟨.nothing, false, false⟩ := by
  simp only [renderField, part, source, beq_eq_false_iff_ne.mpr other, Bool.false_eq_true, if_false]

theorem renderField_stamp_draws {f : Field} {n w h : Nat} {st : Stencil} (part : f.part = .stamp n w h) {content : Option Text}
    (draws : (∀ p, f.source ≠ .contrib p) ∨ content = some [89#8]) {form : Form} (found : form.stencil? n = some st) (short : Bool) :
    renderField form (content, short) f = ⟨.stamp w h st.rows, false, false⟩ := by
  obtain none | rfl := draws
  · cases source : f.source with
    | contrib p => exact absurd source (none p)
    | _ => simp only [renderField, part, source, found, Option.map_some, Option.getD_some, if_true]
  · cases source : f.source <;>
      simp only [renderField, part, source, found, Option.map_some, Option.getD_some, beq_self_eq_true, if_true]

/-! ### The digits of a symbol (R30, R31) -/

theorem digitValues_none {t : Text} (bad : ∃ c ∈ t, c.toNat < 48 ∨ 57 < c.toNat) : digitValues t = none := by
  obtain ⟨c, mem, out⟩ := bad
  refine if_neg fun all => ?_
  have digit := List.all_eq_true.mp all c mem
  simp only [Bool.and_eq_true, decide_eq_true_eq] at digit
  omega

theorem digitValues_digits {data : List Nat} (digits : ∀ x ∈ data, x ≤ 9) :
    digitValues (data.map fun x => BitVec.ofNat 8 (48 + x)) = some data := by
  have number (x : Nat) (mem : x ∈ data) : (BitVec.ofNat 8 (48 + x)).toNat = 48 + x := toNat_digit (digits x mem)
  rw [digitValues, if_pos]
  · rw [List.map_map]
    refine congrArg some ((List.map_congr_left fun x mem => ?_).trans data.map_id)
    simp [number x mem]
  · simp only [List.all_map, List.all_eq_true, Function.comp_apply, Bool.and_eq_true, decide_eq_true_eq]
    intro x mem
    have bound := digits x mem
    rw [number x mem]
    omega

/-- The weighted sum place by place: the weights take turns (R31). -/
theorem mod10Sum_eq {w : Nat} (le : w ≤ 4) (l : List Nat) :
    mod10Sum w l = ((List.range l.length).map fun i => (if i % 2 = 0 then w else 4 - w) * l.getD i 0).sum := by
  induction l generalizing w with
  | nil => rfl
  | cons d l ih =>
    rw [mod10Sum, ih (Nat.sub_le 4 w), List.length_cons, List.range_succ_eq_map, List.map_cons, List.sum_cons, List.map_map]
    congr 1
    · simp [Nat.mul_comm]
    · refine congrArg List.sum (List.map_congr_left fun i _ => ?_)
      simp only [Function.comp_apply, List.getD_cons_succ, Nat.sub_sub_self le]
      congr 1
      split <;> split <;> omega

/-- The check digit is the one that brings the weighted sum to a multiple of ten (R31). -/
theorem mod10Digit_eq {data : List Nat} {check : Nat} (digit : check ≤ 9)
    (whole : (check + ((List.range data.length).map fun i => (if i % 2 = 0 then 3 else 1) * data.reverse.getD i 0).sum) % 10 = 0) :
    mod10Digit data = check := by
  have sum := mod10Sum_eq (w := 3) (by omega) data.reverse
  simp only [List.length_reverse, Nat.reduceSub] at sum
  rw [mod10Digit, sum]
  omega

/-- The encoded digits: the check digit behind the data where the form asks for it, and a 0 before an odd count (R31). -/
theorem encodedDigits_eq {data : List Nat} {check : Nat} (found : mod10Digit data = check) (mod10 : Bool) :
    encodedDigits mod10 data = if (if mod10 then data ++ [check] else data).length % 2 = 1 then
      0 :: (if mod10 then data ++ [check] else data) else if mod10 then data ++ [check] else data := by
  rw [encodedDigits, found]

theorem encodedDigits_digits {data : List Nat} (digits : ∀ x ∈ data, x ≤ 9) (mod10 : Bool) : ∀ x ∈ encodedDigits mod10 data, x ≤ 9 := by
  have check : mod10Digit data ≤ 9 := Nat.le_of_lt_succ (Nat.mod_lt _ (by omega))
  unfold encodedDigits
  extract_lets whole
  have all : ∀ x ∈ whole, x ≤ 9 := by
    unfold whole
    split
    · simpa [or_imp, forall_and, check] using digits
    · exact digits
  split
  · exact List.forall_mem_cons.mpr ⟨by omega, all⟩
  · exact all

/-! ### The elements of a symbol (R32, R33) -/

/-- A digit has two wide elements and three narrow ones (R32). -/
theorem digitPattern_width (n w d : Nat) : ((digitPattern d).map (elementWidth n w)).sum = 3 * n + 2 * w := by
  unfold digitPattern
  split <;> simp [elementWidth] <;> omega

theorem length_digitPattern (d : Nat) : (digitPattern d).length = 5 := by
  unfold digitPattern
  split <;> rfl

/-- Which elements of a digit are wide (R32). -/
def wideAt (x k : Nat) : Bool :=
  ([[2, 3], [0, 4], [1, 4], [0, 1], [2, 4], [0, 2], [1, 2], [3, 4], [0, 3], [1, 3]].getD x []).contains k

theorem digitPattern_eq {x : Nat} (digit : x ≤ 9) : digitPattern x = (List.range 5).map (wideAt x) := by
  interval_cases x <;> decide

/-- The elements of a pair of digits, bars of the first and spaces of the second in turn (R32). -/
theorem pairElements_eq {a b : Nat} (first : a ≤ 9) (second : b ≤ 9) (n w : Nat) : pairElements n w a b =
    (List.range 5).flatMap fun k => [(true, if wideAt a k then w else n), (false, if wideAt b k then w else n)] := by
  rw [pairElements, digitPattern_eq first, digitPattern_eq second, List.zip_map', List.flatMap_map]
  rfl

/-- Two lists in turn, bars and spaces, are as wide as both (R32). -/
theorem sum_zip_elements (n w : Nat) {l m : List Bool} (same : l.length = m.length) :
    (((List.zip l m).flatMap fun e => [(true, elementWidth n w e.1), (false, elementWidth n w e.2)]).map Prod.snd).sum =
      (l.map (elementWidth n w)).sum + (m.map (elementWidth n w)).sum := by
  induction l generalizing m with
  | nil =>
    obtain rfl := List.length_eq_zero_iff.mp same.symm
    rfl
  | cons x l ih =>
    cases m with
    | nil => cases same
    | cons y m =>
      have rest := ih (Nat.succ.inj same)
      simp only [List.zip_cons_cons, List.flatMap_cons, List.map_append, List.map_cons, List.map_nil, List.sum_append, List.sum_cons,
        List.sum_nil, rest]
      omega

theorem pairElements_width (n w a b : Nat) : ((pairElements n w a b).map Prod.snd).sum = 6 * n + 4 * w := by
  rw [pairElements, sum_zip_elements n w (by simp only [length_digitPattern]), digitPattern_width, digitPattern_width]
  ring

/-- The pairs of digits, in order (R32). -/
theorem pairsElements_eq (n w : Nat) (digits : List Nat) : pairsElements n w digits =
    (List.range (digits.length / 2)).flatMap fun i => pairElements n w (digits.getD (2 * i) 0) (digits.getD (2 * i + 1) 0) := by
  induction digits using pairsElements.induct with
  | case1 a b rest ih =>
    have pairs : (a :: b :: rest).length / 2 = rest.length / 2 + 1 := by
      simp only [List.length_cons]
      omega
    rw [pairsElements, ih, pairs, List.range_succ_eq_map, List.flatMap_cons, List.flatMap_map]
    rfl
  | case2 l short =>
    have none : l.length / 2 = 0 := by
      match l, short with
      | [], _ => rfl
      | [_], _ => exact Nat.div_eq_of_lt one_lt_two
      | a :: b :: rest, short => exact absurd rfl (short a b rest)
    rw [pairsElements, none]
    · rfl
    · exact short

theorem pairsElements_width (n w : Nat) (digits : List Nat) :
    ((pairsElements n w digits).map Prod.snd).sum = digits.length / 2 * (6 * n + 4 * w) := by
  rw [pairsElements_eq]
  generalize digits.length / 2 = pairs
  induction pairs with
  | zero => simp
  | succ k ih =>
    rw [List.range_succ, List.flatMap_append, List.map_append, List.sum_append, ih, List.flatMap_singleton, pairElements_width]
    ring

/-- A symbol's elements are together as wide as it (R33). -/
theorem symbolElements_width (n w : Nat) (digits : List Nat) :
    ((symbolElements n w digits).map Prod.snd).sum = symbolWidth n w digits.length := by
  simp only [symbolElements, symbolWidth, List.map_append, List.sum_append, pairsElements_width, List.map_cons, List.map_nil,
    List.sum_cons, List.sum_nil]
  ring

/-! ### The bars of a symbol (R34) -/

/-- A column lies in a bar of elements that begin at some column, less the bar reduction (R34). -/
def inBar (r x u : Nat) (elements : List Element) : Prop := ∃ front e back, elements = front ++ (true, e) :: back ∧
  x + (front.map Prod.snd).sum ≤ u ∧ u < x + (front.map Prod.snd).sum + (e - r)

theorem inBar_cons {r x u width : Nat} {bar : Bool} {rest : List Element} : inBar r x u ((bar, width) :: rest) ↔
    (bar = true ∧ x ≤ u ∧ u < x + (width - r)) ∨ inBar r (x + width) u rest := by
  constructor
  · rintro ⟨front, e, back, split, left, right⟩
    cases front with
    | nil =>
      obtain ⟨⟨rfl, rfl⟩, rfl⟩ := by simpa using split
      exact .inl ⟨rfl, left, right⟩
    | cons element front =>
      obtain ⟨rfl, rfl⟩ := List.cons.inj split
      simp only [List.map_cons, List.sum_cons, ← Nat.add_assoc] at left right
      exact .inr ⟨front, e, back, rfl, left, right⟩
  · rintro (⟨rfl, left, right⟩ | ⟨front, e, back, rfl, left, right⟩)
    · exact ⟨[], width, rest, rfl, left, right⟩
    · refine ⟨(bar, width) :: front, e, back, rfl, ?_, ?_⟩ <;> simp only [List.map_cons, List.sum_cons, ← Nat.add_assoc]
      · exact left
      · exact right

theorem inBar_zero {r u : Nat} {elements : List Element} : inBar r 0 u elements ↔ ∃ front e back, elements = front ++ (true, e) :: back ∧
    (front.map Prod.snd).sum ≤ u ∧ u < (front.map Prod.snd).sum + (e - r) := by
  simp only [inBar, Nat.zero_add]

/-- The bars drawn are those of the elements (R34). -/
theorem barsFrom_any {r x u : Nat} {elements : List Element} :
    ((barsFrom r x elements).any fun b => b.1 ≤ u && u < b.1 + b.2) = true ↔ inBar r x u elements := by
  induction elements generalizing x with
  | nil => simp [barsFrom, inBar]
  | cons element rest ih =>
    obtain ⟨bar, width⟩ := element
    rw [inBar_cons, ← ih]
    cases bar <;> simp [barsFrom]

/-! ### A symbol rendered (R30 to R37) -/

theorem renderBarcode_bad {t : Text} (bad : digitValues t = none) (n w hb red wide : Nat) (mod10 readable : Bool) :
    renderBarcode n w hb mod10 red readable wide t = (.nothing, true) := by
  simp only [renderBarcode, bad]

section

variable {t : Text} {data : List Nat} {mod10 : Bool} {n w wide : Nat}

/-- Too many digits, or a symbol wider than its box, is a symbol error (R31, R35). -/
theorem renderBarcode_large (values : digitValues t = some data)
    (large : 48 < (encodedDigits mod10 data).length ∨ wide < symbolWidth n w (encodedDigits mod10 data).length) (hb red : Nat)
    (readable : Bool) : renderBarcode n w hb mod10 red readable wide t = (.nothing, true) := by
  simp only [renderBarcode, values]
  exact if_pos (by simpa using large)

theorem renderBarcode_fits (values : digitValues t = some data) (short : (encodedDigits mod10 data).length ≤ 48)
    (narrow : symbolWidth n w (encodedDigits mod10 data).length ≤ wide) (hb red : Nat) (readable : Bool) :
    renderBarcode n w hb mod10 red readable wide t =
      (.barcode (symbolWidth n w (encodedDigits mod10 data).length) hb
        (barsFrom red 0 (symbolElements n w (encodedDigits mod10 data)))
        (if readable then some (readableStart n (symbolWidth n w (encodedDigits mod10 data).length) (encodedDigits mod10 data).length,
          (encodedDigits mod10 data).map digitChar) else none), false) := by
  simp only [renderBarcode, values]
  exact if_neg (by simpa using ⟨short, narrow⟩)

end

/-- Above the readable line a symbol's dots are its bars (R34). -/
theorem barcodeInk_bars {width hb u v : Nat} {readable : Option (Int × Text)} {r : Nat} {elements : List Element} (above : v < hb) :
    (Rendered.barcode width hb (barsFrom r 0 elements) readable).ink u v = true ↔ inBar r 0 u elements := by
  simp only [Rendered.ink, if_pos above]
  exact barsFrom_any

/-- Two blank lines part the bars and the readable line (R36). -/
theorem barcodeInk_gap {width hb u v : Nat} {bars : List (Nat × Nat)} {readable : Option (Int × Text)} (below : hb ≤ v) (gap : v < hb + 2) :
    (Rendered.barcode width hb bars readable).ink u v = false := by
  simp only [Rendered.ink, if_neg (not_lt.mpr below)]
  cases readable with
  | none => rfl
  | some line => simp [not_le.mpr gap]

/-- The readable line's digits stand side by side in font S (R36, R37). -/
theorem barcodeInk_readable {width hb i a b u : Nat} {bars : List (Nat × Nat)} {start : Int} {chars : Text} {c : Byte}
    (char : chars[i]? = some c) (col : a < 10) (place : (u : Int) = start + 10 * i + a) :
    (Rendered.barcode width hb bars (some (start, chars))).ink u (hb + 2 + b) = glyphInk .s c a b := by
  have dots := textInk_block (font := .s) (hs := 1) (vs := 1) (b := b) (p := 0) (q := 0) char col one_pos one_pos
  have column : ((u : Int) - start).toNat = i * Font.s.cell.1 * 1 + a * 1 + 0 := by
    show _ = i * 10 * 1 + a * 1 + 0
    omega
  have right : start ≤ (u : Int) := by omega
  simp only [Rendered.ink, if_neg (show ¬ hb + 2 + b < hb by omega), column, right, Nat.le_add_right, decide_true, Bool.true_and,
    Nat.add_sub_cancel_left]
  simpa using dots

/-- What a symbol that fits shows: its frame, its bars, and below two blank lines the digits of its readable line (R33 to R37). -/
structure Rendered.ShowsSymbol (drawn : Rendered) (n w hb red : Nat) (readable : Bool) (digits : List Nat) : Prop where
  frame : drawn.frame = (symbolWidth n w digits.length, if readable then hb + 18 else hb)
  bars  : ∀ u v, v < hb → (drawn.ink u v = true ↔ inBar red 0 u (symbolElements n w digits))
  gap   : readable = true → ∀ u, drawn.ink u hb = false ∧ drawn.ink u (hb + 1) = false
  line  : readable = true → ∀ (i x a b u : Nat), digits[i]? = some x → a < 10 →
    (u : Int) = readableStart n (symbolWidth n w digits.length) digits.length + 10 * i + a →
    drawn.ink u (hb + 2 + b) = glyphInk .s (BitVec.ofNat 8 (48 + x)) a b

theorem showsSymbol {n w : Nat} {digits : List Nat} (small : ∀ x ∈ digits, x ≤ 9) (hb red : Nat) (readable : Bool) :
    (Rendered.barcode (symbolWidth n w digits.length) hb (barsFrom red 0 (symbolElements n w digits))
      (if readable then some (readableStart n (symbolWidth n w digits.length) digits.length, digits.map digitChar) else none)).ShowsSymbol
      n w hb red readable digits where
  frame := by cases readable <;> rfl
  bars _ _ above := barcodeInk_bars above
  gap _ u := ⟨barcodeInk_gap (by omega) (by omega), barcodeInk_gap (by omega) (by omega)⟩
  line shown i x a b u at_i col place := by
    have char : (digits.map digitChar)[i]? = some (BitVec.ofNat 8 (48 + x)) := by
      have digit := small x (List.mem_of_getElem? at_i)
      rw [List.getElem?_map, at_i, Option.map_some, digitChar, Nat.mod_eq_of_lt (by omega)]
    rw [if_pos shown]
    exact barcodeInk_readable char col place

/-- A symbol's elements, digit by digit (R32). -/
theorem symbolElements_eq {digits : List Nat} (small : ∀ x ∈ digits, x ≤ 9) (n w : Nat) : symbolElements n w digits =
    [(false, 10 * n), (true, n), (false, n), (true, n), (false, n)] ++
    ((List.range (digits.length / 2)).flatMap fun i => (List.range 5).flatMap fun k =>
      [(true, if wideAt (digits.getD (2 * i) 0) k then w else n), (false, if wideAt (digits.getD (2 * i + 1) 0) k then w else n)]) ++
    [(true, w), (false, n), (true, n), (false, 10 * n)] := by
  have digit (i : Nat) : digits.getD i 0 ≤ 9 := by
    rw [List.getD_eq_getElem?_getD]
    cases found : digits[i]? with
    | none => simp
    | some x => exact small x (List.mem_of_getElem? found)
  have pairs (i : Nat) := pairElements_eq (digit (2 * i)) (digit (2 * i + 1)) n w
  rw [symbolElements, pairsElements_eq]
  simp only [pairs]

/-- The planes of a field as the manual says them (R104, R105). -/
theorem effectivePlanes_of_port {snapshot : Vector PortPlanes 4} {j : Job} {f : Field} {p : PortPlanes}
    (acting : p = snapshot[actingPort j f]) {k : Nat} (lt : k < 4) : (effectivePlanes snapshot j f).getLsbD k =
      ((if f.part.isStamp then p.stamp.getLsbD k else f.planeByte.getLsbD k) && p.mask.getLsbD k) := by
  rw [acting, effectivePlanes_getLsbD _ _ _ lt]

/-- Settles O48: the write rule, the frame, the planes and the content, then what each kind of field draws. -/
theorem dotIsWrittenUnlessRankedAbove : Obligations.DotIsWrittenUnlessRankedAbove := by
  refine ⟨fun c planes clears rank => ⟨fun below => writeDot_of_below below planes clears,
    fun above => writeDot_of_not_below above planes clears⟩, fun d => ?_, fun snapshot j f p acting k lt => ?_,
    fun j values copy f => ?_, ⟨rfl, rfl, rfl, glyphInk_space⟩, fun form f content short => ?_⟩
  · intro w h carried
    have same : carried = rotate d.rotation d.drawn.frame := by
      funext u v
      cases r : d.rotation <;> simp only [carried, r] <;> rfl
    rw [same]
    exact ⟨fun u v => inks_carried d, fun x y => carried_of_inks⟩
  · have port : p = snapshot[actingPort j f] := by
      refine acting.trans (congrArg (fun q : Port => snapshot[q]) ?_)
      unfold actingPort
      cases f.source <;> rfl
    rw [effectivePlanes_of_port port lt]
    cases f.part <;> rfl
  · intro is
    refine ⟨fun source => fieldContent_fixed source .., fun source => ⟨fun v mem once => ?_, fun lacks => ?_⟩,
      fun p source => ⟨fun c mem field once => ?_, fun lacks => ⟨fun marked filled => ?_, fun bare => ?_⟩⟩, ?_⟩
    · have found : j.data.find? (fun d => d.1 == f.number) = some (f.number, v) := find?_of_nodup once mem
      simp only [is, fieldContent_job source, found, Option.map_some]
    · have none : j.data.find? (fun d => d.1 == f.number) = none := by
        refine List.find?_eq_none.mpr fun d mem same => lacks d.2 ?_
        rwa [← beq_iff_eq.mp same]
      simp only [is, fieldContent_job source, none, Option.map_none]
    · have found : j.contribs.find? (fun c => c.field == f.number) = some c := field ▸ find?_of_nodup once mem
      exact fieldContent_contrib source found ..
    · simp only [is, fieldContent_lacking source lacks, marked, filled, ne_eq, not_false_eq_true, and_self, if_true]
    · rw [← not_and_or.trans (or_congr_right not_not)] at bare
      simp only [is, fieldContent_lacking source lacks, if_neg bare]
    · intro isNumber
      have digits (k n : Nat) : isNumber (digitsOf k n) (n % 10 ^ k) := ⟨fun ch => digitsOf_digits, textNumber_digitsOf k n⟩
      refine ⟨fun c k n source found => ⟨_, fieldContent_counter source found .., length_digitsOf k n, digits k n⟩,
        fun source lo hi least most => ?_⟩
      obtain ⟨copyNumber, copyHead⟩ := digitsOf_digitCount lo (by omega)
      obtain ⟨totalNumber, totalHead⟩ := digitsOf_digitCount least (by omega)
      exact ⟨_, _, fieldContent_copyIndex source .., ⟨fun ch => digitsOf_digits, copyNumber⟩, ⟨fun ch => digitsOf_digits, totalNumber⟩,
        copyHead, totalHead⟩
  · intro r
    refine ⟨fun empty part => renderField_empty part empty form short, ?_, ?_, ?_, ?_, ?_⟩
    · rintro t font hs vs m rfl filled part
      simp only [r, renderField_text part filled]
      refine ⟨trivial, trivial, by simp [Rendered.frame], fun i c a b p q lt char col _ across down => ?_⟩
      exact textInk_block (by rw [List.getElem?_take_of_lt lt, char]) col across down
    · intro w h b part
      simp only [r, renderField_box part]
      exact ⟨trivial, trivial, rfl, fun u v _ _ => boxInk_iff⟩
    · intro n w h p part source other
      exact renderField_stamp_still part source other form short
    · intro n w h st part draws found
      simp only [r, renderField_stamp_draws part draws found]
      exact ⟨rfl, trivial, trivial, rfl, fun u v row => stampInk_iff⟩
    · rintro t n w hb mod10 red readable boxWidth rfl filled part
      have rendered : r = _ := renderField_barcode part filled form short
      clear_value r
      subst rendered
      refine ⟨rfl, fun bad => ?_, ?_⟩
      · rw [renderBarcode_bad (digitValues_none bad)]
        exact ⟨rfl, rfl⟩
      · rintro data check digits rfl small digit whole encoded
        have values := digitValues_digits small
        obtain rfl : digits = encodedDigits mod10 data := encoded.trans (encodedDigits_eq (mod10Digit_eq digit whole) mod10).symm
        have smallDigits := encodedDigits_digits small mod10
        clear encoded whole
        intro width
        refine ⟨fun large => ?_, fun short narrow => ?_⟩
        · rw [renderBarcode_large values large]
          exact ⟨rfl, rfl⟩
        · intro wide size elements
          have same : elements = symbolElements n w (encodedDigits mod10 data) := (symbolElements_eq smallDigits n w).symm
          obtain ⟨frame, bars, gap, line⟩ := showsSymbol (n := n) (w := w) smallDigits hb red readable
          rw [renderBarcode_fits values short narrow, same]
          exact ⟨symbolElements_width .., rfl, frame, fun u v above => (bars u v above).trans inBar_zero,
            fun shown => ⟨gap shown, fun i x a b u at_i col _ => line shown i x a b u at_i col⟩⟩

end Sys2Proof.Machine
end

section
/-! PROOFS. The commands that leave the engine as it was: those of the forms, the counters, the jobs, the lines and the composer. -/

namespace Sys2Proof.Machine

/-! ### The operations under them -/

@[simp] theorem taken_engine (s : State) (p : Port) : (s.taken p).engine = s.engine := rfl

@[simp] theorem setSlot_engine (s : State) (n : Nat) (x : Slot) : (s.setSlot n x).engine = s.engine := by
  unfold State.setSlot
  split <;> rfl

@[simp] theorem retainForm_engine (s : State) (n : Nat) (f : Option Form) : (s.retainForm n f).engine = s.engine := by
  unfold State.retainForm
  split <;> rfl

@[simp] theorem refuseContribs_engine (s : State) (gone : List PoolEntry) : (s.refuseContribs gone).engine = s.engine := by
  rw [refuseContribs_frame]

@[simp] theorem placeCompletion_engine (s : State) (c : Completion) : (s.placeCompletion c).engine = s.engine := by
  rw [placeCompletion_frame]

@[simp] theorem dropEntries_engine (s : State) (out : PoolEntry → Bool) : (s.dropEntries out).engine = s.engine := by
  rw [dropEntries_frame]

@[simp] theorem poolSecond_engine (s : State) : s.poolSecond.engine = s.engine := by rw [poolSecond_frame]

@[simp] theorem mergeFilled_engine (s : State) (n : Nat) : (s.mergeFilled n).engine = s.engine := rfl

@[simp] theorem sweepPool_engine (s : State) (n : Nat) (f : Form) (key : Text) : (s.sweepPool n f key).engine = s.engine := by
  simp [State.sweepPool]

@[simp] theorem dropOpenJob_engine (s : State) (p : Port) : (s.dropOpenJob p).engine = s.engine := by
  unfold State.dropOpenJob
  split <;> rfl

@[simp] theorem resetPort_engine (s : State) (p : Port) : (s.resetPort p).engine = s.engine := by
  unfold State.resetPort State.dropDefining
  split <;> simp

@[simp] theorem drawOne_engine (s : State) (c : CounterNo) : (s.drawOne c).engine = s.engine := by
  unfold State.drawOne
  split
  · rfl
  · dsimp only
    split <;> rfl

@[simp] theorem drawAll_engine (s : State) (f : Form) : (s.drawAll f).engine = s.engine := by
  have draws : (f.counters.foldl (fun s c => s.drawOne c) s).engine = s.engine :=
    foldl_keeps (fun s t => t.engine = s.engine) (fun _ => rfl) (fun h k => k.trans h) drawOne_engine _ s
  unfold State.drawAll
  split
  · rfl
  · exact draws

@[simp] theorem drawFails_engine (s : State) (j : Job) (c : CounterNo) : (s.drawFails j c).engine = s.engine := by
  unfold State.drawFails
  dsimp only
  split
  · split <;> rfl
  · rfl

/-! ### The composer -/

@[simp] theorem answerAsk_engine (s : State) : s.answerAsk.engine = s.engine := by
  have start (j : Job) : (s.startCopy j).engine = s.engine := by
    unfold State.startCopy
    split
    · rfl
    · split
      · simp
      · dsimp only
        split <;> simp [State.beginLabel]
  unfold State.answerAsk
  split
  · rfl
  · split
    · exact start _
    · rfl

@[simp] theorem takeBuffer_engine (s : State) : s.takeBuffer.engine = s.engine := by
  unfold State.takeBuffer
  split
  · rfl
  · split
    · split <;> rfl
    · rfl

@[simp] theorem finishFill_engine (s : State) : s.finishFill.engine = s.engine := by
  unfold State.finishFill
  split
  · split
    · split
      · rfl
      · dsimp only
        split <;> split <;> rfl
    · rfl
  · rfl

/-! ### The records of the forms and the counters -/

theorem takeRetainScope_engine (s : State) (p : Port) (scope : Option Scope) : (s.takeRetainScope p scope).engine = s.engine := by
  unfold State.takeRetainScope
  split <;> rfl

theorem takePortSettings_engine (s : State) (p : Port) (t : Option PortSettings) : (s.takePortSettings p t).engine = s.engine := by
  unfold State.takePortSettings
  split <;> rfl

theorem takeFormBegin_engine (s : State) (p : Port) (r : Option FormBegin) : (s.takeFormBegin p r).engine = s.engine := by
  unfold State.takeFormBegin
  split
  · rfl
  · split
    · rfl
    · split <;> simp [apply_ite State.engine]

theorem takeFieldDef_engine (s : State) (p : Port) (r : Option Field) : (s.takeFieldDef p r).engine = s.engine := by
  unfold State.takeFieldDef
  split <;> simp [apply_ite State.engine]

theorem takeStencilDef_engine (s : State) (p : Port) (r : StencilDef) : (s.takeStencilDef p r).engine = s.engine := by
  unfold State.takeStencilDef
  split <;> simp [apply_ite State.engine]

theorem takeFormEnd_engine (s : State) (p : Port) : (s.takeFormEnd p).engine = s.engine := by
  unfold State.takeFormEnd
  split <;> simp [apply_ite State.engine]

theorem takeFormDelete_engine (s : State) (p : Port) (n : Nat) : (s.takeFormDelete p n).engine = s.engine := by
  unfold State.takeFormDelete
  split
  · rfl
  · split <;> simp [apply_ite State.engine]

theorem takeFormQuery_engine (s : State) (p : Port) (n : Nat) : (s.takeFormQuery p n).engine = s.engine := by
  unfold State.takeFormQuery
  split <;> rfl

theorem takeCounterSet_engine (s : State) (p : Port) (r : CounterSet) : (s.takeCounterSet p r).engine = s.engine := by
  unfold State.takeCounterSet
  split
  · rfl
  · split <;> rfl

theorem takeCounterFree_engine (s : State) (p : Port) (n : Nat) : (s.takeCounterFree p n).engine = s.engine := by
  unfold State.takeCounterFree
  split
  · rfl
  · split
    · rfl
    · split <;> rfl

theorem takeCounterQuery_engine (s : State) (p : Port) (n : Nat) : (s.takeCounterQuery p n).engine = s.engine := by
  unfold State.takeCounterQuery
  split
  · rfl
  · split <;> rfl

/-! ### The records of the jobs and the lines -/

theorem takeJobOpen_engine (s : State) (p : Port) (r : Option JobOpen) : (s.takeJobOpen p r).engine = s.engine := by
  have opens (r : JobOpen) (f : Form) : (s.openJob p r f).engine = s.engine := by
    unfold State.openJob
    dsimp only
    split <;> simp
  unfold State.takeJobOpen
  split
  · rfl
  · rfl
  · split
    · rfl
    · exact opens ..
    · rfl

theorem takeFieldData_engine (s : State) (p : Port) (n : Nat) (v : Text) : (s.takeFieldData p n v).engine = s.engine := by
  unfold State.takeFieldData
  split
  · rfl
  · split <;> simp [apply_ite State.engine]

theorem takeJobClose_engine (s : State) (p : Port) : (s.takeJobClose p).engine = s.engine := by
  have close (j : Job) : (s.closeJob j).engine = s.engine := by
    unfold State.closeJob
    dsimp only
    split
    · rfl
    · split <;> simp [State.startTimer]
  unfold State.takeJobClose
  split
  · rfl
  · split
    · rfl
    · exact close _

theorem takeJobHold_engine (s : State) (p : Port) (n : Nat) : (s.takeJobHold p n).engine = s.engine := by
  unfold State.takeJobHold
  split <;> simp [apply_ite State.engine]

theorem takeJobRelease_engine (s : State) (p : Port) (n : Nat) : (s.takeJobRelease p n).engine = s.engine := by
  unfold State.takeJobRelease
  split <;> simp [apply_ite State.engine]

theorem takeJobQuery_engine (s : State) (p : Port) (n : Nat) : (s.takeJobQuery p n).engine = s.engine := by
  unfold State.takeJobQuery
  split
  · rfl
  · split
    · rfl
    · split <;> rfl

theorem takeContribute_engine (s : State) (p : Port) (r : Contribute) : (s.takeContribute p r).engine = s.engine := by
  have toJob (j : Job) : (s.contributeToJob p r j).engine = s.engine := by
    simp [State.contributeToJob, apply_ite State.engine]
  have toPool : (s.contributeToPool p r).engine = s.engine := by
    unfold State.contributeToPool
    split <;> simp [State.pooled, apply_ite State.engine]
  unfold State.takeContribute
  split
  · rfl
  · split
    · exact toJob _
    · exact toPool

theorem takePositionWatch_engine (s : State) (p : Port) (w : PositionWatch) : (s.takePositionWatch p w).engine = s.engine := by
  unfold State.takePositionWatch
  split
  · rfl
  · split
    · rfl
    · split
      · rfl
      · split <;> rfl

theorem receive_engine (s : State) (p : Port) (char : Byte) : (s.receive p char).engine = s.engine := by
  unfold State.receive
  dsimp only
  split <;> rfl

/-! ### The merge timer and the idle second -/

theorem timerExpires_engine (s : State) (n : Nat) : (s.timerExpires n).engine = s.engine := by
  have expire (j : Job) (policy : MergePolicy) : (s.expire j policy).engine = s.engine := by
    cases policy <;> simp [State.expire]
  unfold State.timerExpires
  split
  · rfl
  · split
    · rfl
    · split
      · exact expire ..
      · rfl

theorem idle_engine (s : State) : s.idle.engine = s.engine := by
  unfold State.idle
  split
  · rfl
  · exact poolSecond_engine s

end Sys2Proof.Machine
end

section
/-! PROOFS. What the engine's soundness asks of its state, its task, the line in progress and its fault set; and that label ends, flushes
and readings leave these four as they were. -/

namespace Sys2Proof.Machine

/-! ### What soundness speaks of -/

/-- The part of the engine its soundness speaks of: its state, its task, the line in progress and its fault set. -/
def Engine.drive (e : Engine) : EngineMode × Task × Option Line × FaultSet := (e.mode, e.task, e.line, e.faults)

theorem drive_eq_iff {d e : Engine} :
    e.drive = d.drive ↔ e.mode = d.mode ∧ e.task = d.task ∧ e.line = d.line ∧ e.faults = d.faults := by
  simp [Engine.drive]

theorem sound_of_drive {d e : Engine} (same : e.drive = d.drive) (sound : d.sound) : e.sound := by
  obtain ⟨mode, task, line, faults⟩ := drive_eq_iff.mp same
  unfold Engine.sound Engine.taskFits Engine.faultsFit at *
  rwa [mode, task, line, faults]

/-- The engine state in which a task is fed for; a task of its own is none (R141, R142, R147, R153). -/
def Task.feedsIn : Task → EngineMode
  | .idle => .stopped
  | .seek | .feedFirst | .feedSecond _ | .feedTo _ => .registering
  | .approach .. | .lines | .carry _ => .burning

/-- A line of no burned label has no phase and no dot enabled, and only a line of the label at the head is burned (R121, R130). -/
def Engine.lineFits (e : Engine) : Prop :=
  ∀ l, e.line = some l → (l.burn = none → l.phases = [] ∧ l.enabled = []) ∧ (l.burn ≠ none → e.task = .lines)

/-- The line in progress, if any, is fed unburned (R134). -/
def Engine.unburned (e : Engine) : Prop := ∀ l, e.line = some l → l.burn = none ∧ l.phases = [] ∧ l.enabled = []

theorem unburned_of_none {e : Engine} (none : e.line = none) : e.unburned := by simp [Engine.unburned, none]

theorem lineFits_of_unburned {e : Engine} (blank : e.unburned) : e.lineFits := fun l line =>
  ⟨fun _ => (blank l line).2, fun burns => absurd (blank l line).1 burns⟩

/-- The engine feeds for its task, with no fault standing (R135, R136). -/
structure Engine.Feeds (e : Engine) : Prop where
  mode   : e.mode = e.task.feedsIn
  task   : e.task ≠ .idle
  faults : e.faults = .none

theorem feeds_of_drive {d e : Engine} (same : e.drive = d.drive) (feeds : d.Feeds) : e.Feeds := by
  obtain ⟨mode, task, -, faults⟩ := drive_eq_iff.mp same
  exact ⟨by rw [mode, task, feeds.mode], by rw [task]; exact feeds.task, by rw [faults, feeds.faults]⟩

/-- The states in which the motor stands still and there is nothing to feed for (R135). -/
def EngineMode.rests : EngineMode → Bool
  | .unset | .stopped | .presenting | .retracting | .dry | .fault => true
  | .registering | .burning | .paused => false

/-! ### Sound states -/

theorem sound_of_feeds {e : Engine} (feeds : e.Feeds) (line : e.lineFits) : e.sound := by
  obtain ⟨mode, task, faults⟩ := feeds
  refine ⟨⟨?_, line⟩, ?_⟩
  · rw [mode]
    cases kind : e.task with
    | idle => exact absurd kind task
    | _ => trivial
  · unfold Engine.faultsFit
    rw [mode]
    cases e.task <;> exact faults

/-- An engine at rest is sound where its fault set fits (R135, R151). -/
theorem sound_of_rest {e : Engine} (rests : e.mode.rests = true) (task : e.task = .idle) (line : e.line = none) (faults : e.faultsFit) :
    e.sound := by
  refine ⟨⟨?_, lineFits_of_unburned (unburned_of_none line)⟩, faults⟩
  cases mode : e.mode with
  | registering | burning | paused => simp [mode, EngineMode.rests] at rests
  | _ => exact ⟨task, line⟩

/-- STOPPED, PRESENTING or RETRACTING with the motor stopped and no fault standing. -/
theorem sound_of_still {e : Engine} (mode : e.mode = .stopped ∨ e.mode = .presenting ∨ e.mode = .retracting) (task : e.task = .idle)
    (line : e.line = none) (faults : e.faults = .none) : e.sound := by
  obtain mode | mode | mode := mode <;>
    exact sound_of_rest (by rw [mode]; rfl) task line (by unfold Engine.faultsFit; rwa [mode])

theorem sound_of_paused {e : Engine} (mode : e.mode = .paused) (task : e.task = .lines) (line : e.line = none)
    (faults : e.faults = .none) : e.sound := by
  refine ⟨⟨?_, lineFits_of_unburned (unburned_of_none line)⟩, ?_⟩
  · rw [mode]
    exact ⟨task, line⟩
  · unfold Engine.faultsFit
    rwa [mode]

/-! ### What a sound engine is -/

theorem rest_of_sound {e : Engine} (sound : e.sound) (rests : e.mode.rests = true) : e.task = .idle ∧ e.line = none := by
  obtain ⟨⟨fits, -⟩, -⟩ := sound
  cases mode : e.mode with
  | registering | burning | paused => simp [mode, EngineMode.rests] at rests
  | _ => rwa [mode] at fits

theorem feeds_of_sound {e : Engine} (sound : e.sound) (mode : e.mode = .registering ∨ e.mode = .burning) : e.Feeds := by
  obtain ⟨⟨fits, -⟩, faults⟩ := sound
  unfold Engine.faultsFit at faults
  obtain mode | mode := mode <;> rw [mode] at fits faults
  all_goals
    refine ⟨?_, ?_, faults⟩ <;> cases task : e.task <;> simp_all [Task.feedsIn]

theorem paused_of_sound {e : Engine} (sound : e.sound) (mode : e.mode = .paused) : e.task = .lines ∧ e.line = none := by
  obtain ⟨⟨fits, -⟩, -⟩ := sound
  rwa [mode] at fits

/-- No fault stands while the engine is out of UNSET, DRY and FAULT (R151). -/
theorem noFault_of_sound {e : Engine} (sound : e.sound) (enters : e.mode.entersFault = true) : e.faults = .none := by
  have faults : e.faultsFit := sound.2
  unfold Engine.faultsFit at faults
  cases mode : e.mode with
  | unset | dry | fault => simp [mode, EngineMode.entersFault] at enters
  | _ => rwa [mode] at faults

/-- A line is in progress only while the motor moves forward (R135). -/
theorem moves_of_line {e : Engine} (sound : e.sound) {l : Line} (line : e.line = some l) :
    e.mode = .registering ∨ e.mode = .burning := by
  cases mode : e.mode with
  | registering => exact .inl rfl
  | burning => exact .inr rfl
  | paused => simp [paused_of_sound sound mode] at line
  | _ => simp [rest_of_sound sound (by rw [mode]; rfl)] at line

/-- The line in progress changed or ended. -/
theorem sound_of_line {d e : Engine} (sound : d.sound) (mode : e.mode = d.mode) (task : e.task = d.task) (faults : e.faults = d.faults)
    (none : d.line = none → e.line = none) (fits : e.lineFits) : e.sound := by
  cases line : d.line with
  | none => exact sound_of_drive (drive_eq_iff.mpr ⟨mode, task, (none line).trans line.symm, faults⟩) sound
  | some l =>
    have feeds := feeds_of_sound sound (moves_of_line sound line)
    exact sound_of_feeds ⟨by rw [mode, task, feeds.mode], by rw [task]; exact feeds.task, faults.trans feeds.faults⟩ fits

/-- Heat reaches the media only while BURNING with no fault standing (R130). -/
theorem burning_of_heats {e : Engine} (sound : e.sound) (heats : e.heats = true) : e.mode = .burning ∧ e.faults = .none := by
  obtain ⟨l, line, on⟩ := (Option.any_eq_true ..).mp heats
  obtain ⟨blank, burned⟩ := sound.1.2 l line
  have task : e.task = .lines := burned fun none => by simp [(blank none).2] at on
  obtain ⟨mode, -, faults⟩ := feeds_of_sound sound (moves_of_line sound line)
  exact ⟨by rw [mode, task]; rfl, faults⟩

/-! ### What leaves the drive as it was -/

theorem endLabel_drive (s : State) (job copy : Nat) (o : LabelOutcome) (mismatch : Bool) :
    (s.endLabel job copy o mismatch).engine.drive = s.engine.drive := by
  rw [endLabel_frame]
  rfl

theorem endAtHead_drive (s : State) (h : HeadLabel) (o : LabelOutcome) : (s.endAtHead h o).engine.drive = s.engine.drive :=
  endLabel_drive s h.job h.copy o (s.mismatch h)

theorem endIfDue_drive (s : State) (h : HeadLabel) : (s.endIfDue h).engine.drive = s.engine.drive := by
  unfold State.endIfDue
  split <;> split
  exacts [endAtHead_drive .., rfl, endAtHead_drive .., rfl]

/-- A fold whose every step leaves the drive leaves it. -/
theorem foldl_drive {α : Type} {f : State → α → State} (h : ∀ (s : State) x, (f s x).engine.drive = s.engine.drive) (l : List α)
    (s : State) : (l.foldl f s).engine.drive = s.engine.drive :=
  foldl_keeps (fun s t => t.engine.drive = s.engine.drive) (fun _ => rfl) (fun h k => k.trans h) h l s

@[simp] theorem flush_engine (s : State) (first : Option RedoEntry) : (s.flush first).engine = s.engine := by rw [flush_frame]

@[simp] theorem skipVoid_engine (s : State) : s.skipVoid.engine = s.engine := by rw [skipVoid_frame]

theorem endsAtStep_drive (s : State) : s.endsAtStep.engine.drive = s.engine.drive := by
  unfold State.endsAtStep
  extract_lets t spoiled entry ended
  have ends : ended.engine.drive = s.engine.drive := foldl_drive endIfDue_drive _ t
  split
  · rw [flush_engine, ends]
  · exact ends

/-- A reading moves the sensor, the edge list and registration alone (R138 to R140). -/
theorem read_drive (e : Engine) (sensor nOn nOff : Nat) (gap : Bool) : (e.read sensor nOn nOff gap).drive = e.drive := by
  have found (e : Engine) (pos : Int) : (e.edgeFound pos).drive = e.drive := by
    unfold Engine.edgeFound
    split <;> rfl
  have turned (e : Engine) (pos : Int) : (e.gapFound pos).drive = e.drive := by
    unfold Engine.gapFound
    split
    · split <;> rfl
    · rfl
  unfold Engine.read Engine.readOnGap Engine.readOnLabel
  split
  · dsimp only
    split
    · split
      · rfl
      · split
        · exact found ..
        · rfl
    · split
      · split
        · exact turned ..
        · rfl
      · rfl
  · rfl

/-- A step of the motor ends the line in progress (R133, R137). -/
theorem motorSteps_drive (s : State) (l : Line) (gap : Bool) :
    (s.motorSteps l gap).engine.drive = (s.engine.mode, s.engine.task, none, s.engine.faults) :=
  read_drive { s.engine with hp := s.engine.hp + 1, prevPeriod := some l.period, line := none } ..

theorem endLine_drive (s : State) (l : Line) : (s.endLine l).engine.drive = s.engine.drive := by
  unfold State.endLine
  split
  · extract_lets counted handed
    have hands : handed.engine.drive = s.engine.drive := by
      unfold handed
      split <;> rfl
    split
    · split <;> exact hands
    · exact hands
  · rfl

/-- What an entry into FAULT makes of the drive (R151). -/
theorem enterFault_drive (s : State) : s.enterFault.engine.drive = (.fault, .idle, none, s.engine.faults) := by
  have ends : (s.onEngine Engine.motorStop).headsFaulted.engine.drive = (s.onEngine Engine.motorStop).engine.drive :=
    foldl_drive (fun s h => endAtHead_drive s h _) _ _
  obtain ⟨-, -, line, faults⟩ := drive_eq_iff.mp ends
  rw [enterFault_eq, postAll_engine, engine_onEngine, flush_engine]
  simp only [Engine.drive, faultCleared_line, faultCleared_faults, line, faults]
  rfl

end Sys2Proof.Machine
end

section
/-! PROOFS. The relation of states the engine's next work has: HP, the sensed-to mark, the readings and the fault set stay, and a line
started has the period that its phases, the speed and the ramp ask for (R131 to R133). -/

namespace Sys2Proof.Machine

/-! ### The relation -/

/-- A line's period is the largest of its three figures (R133). -/
def State.Paced (s : State) (m : Line) : Prop :=
  ∃ r, s.settings = some r ∧
    m.period = linePeriod m.required (minimumPeriod r.speed s.engine.hot) (rampFloor s.engine.prevPeriod)

/-- From one state to the next the engine goes on with its work: HP, the mark, the readings and the faults stay, the motor may stop, and a
line in progress is the one before, the motor not stopped, or has the period of a new one (R133, R137). -/
structure State.Works (s t : State) : Prop where
  frame       : t = { s with
    engine := t.engine, ring := t.ring, hand := t.hand, labels := t.labels, redo := t.redo, queue := t.queue, ports := t.ports }
  hp          : t.engine.hp = s.engine.hp
  mark        : t.engine.mark = s.engine.mark
  temperature : t.engine.temperature = s.engine.temperature
  voltage     : t.engine.voltage = s.engine.voltage
  hot         : t.engine.hot = s.engine.hot
  faults      : t.engine.faults = s.engine.faults
  pace        : t.engine.prevPeriod = s.engine.prevPeriod ∨ t.engine.prevPeriod = none
  line        : ∀ m, t.engine.line = some m → s.engine.line = some m ∧ t.engine.prevPeriod = s.engine.prevPeriod ∨ t.Paced m

namespace State.Works

theorem refl (s : State) : s.Works s := ⟨rfl, rfl, rfl, rfl, rfl, rfl, rfl, .inl rfl, fun _ line => .inl ⟨line, rfl⟩⟩

theorem trans {a b c : State} (h : a.Works b) (k : b.Works c) : a.Works c where
  frame := by rw [k.frame, h.frame]
  hp := k.hp.trans h.hp
  mark := k.mark.trans h.mark
  temperature := k.temperature.trans h.temperature
  voltage := k.voltage.trans h.voltage
  hot := k.hot.trans h.hot
  faults := k.faults.trans h.faults
  pace := by
    obtain same | stopped := k.pace
    · rw [same]
      exact h.pace
    · exact .inr stopped
  line m line := by
    obtain ⟨before, same⟩ | paced := k.line m line
    · obtain ⟨first, still⟩ | ⟨r, set, period⟩ := h.line m before
      · exact .inl ⟨first, same.trans still⟩
      · exact .inr ⟨r, by rw [k.frame, ← set], by rw [k.hot, same, period]⟩
    · exact .inr paced

/-- What the line, the mark and the motor's pace are not part of. -/
theorem of_frame {s t : State}
    (frame : t = { s with
      engine := t.engine, ring := t.ring, hand := t.hand, labels := t.labels, redo := t.redo, queue := t.queue, ports := t.ports })
    (hp : t.engine.hp = s.engine.hp := by rfl) (mark : t.engine.mark = s.engine.mark := by rfl)
    (temperature : t.engine.temperature = s.engine.temperature := by rfl) (voltage : t.engine.voltage = s.engine.voltage := by rfl)
    (hot : t.engine.hot = s.engine.hot := by rfl) (faults : t.engine.faults = s.engine.faults := by rfl)
    (pace : t.engine.prevPeriod = s.engine.prevPeriod := by rfl) (line : t.engine.line = s.engine.line := by rfl) : s.Works t :=
  ⟨frame, hp, mark, temperature, voltage, hot, faults, .inl pace, fun _ m => .inl ⟨line.symm.trans m, pace⟩⟩

/-- The motor stopped. -/
theorem of_stop {s t : State}
    (frame : t = { s with
      engine := t.engine, ring := t.ring, hand := t.hand, labels := t.labels, redo := t.redo, queue := t.queue, ports := t.ports })
    (hp : t.engine.hp = s.engine.hp := by rfl) (mark : t.engine.mark = s.engine.mark := by rfl)
    (temperature : t.engine.temperature = s.engine.temperature := by rfl) (voltage : t.engine.voltage = s.engine.voltage := by rfl)
    (hot : t.engine.hot = s.engine.hot := by rfl) (faults : t.engine.faults = s.engine.faults := by rfl)
    (pace : t.engine.prevPeriod = none := by rfl) (line : t.engine.line = none := by rfl) : s.Works t :=
  ⟨frame, hp, mark, temperature, voltage, hot, faults, .inr pace, fun _ m => by cases line.symm.trans m⟩

end State.Works

/-! ### Lines -/

theorem works_startBlank (s : State) : s.Works s.startBlank := by
  unfold State.startBlank
  split
  · exact .refl s
  next r set => exact { State.Works.refl s with frame := rfl, line := by rintro m ⟨⟩; exact .inr ⟨r, set, rfl⟩ }

theorem works_startBurn (s : State) (y : Nat) (bits : List Bool) : s.Works (s.startBurn y bits) := by
  unfold State.startBurn
  split
  next r _ set _ => exact { State.Works.refl s with frame := rfl, line := by rintro m ⟨⟩; exact .inr ⟨r, set, rfl⟩ }
  · exact .refl s

theorem works_underrun (s : State) (h : HeadLabel) : s.Works (s.underrun h) := by
  unfold State.underrun
  split
  · exact .trans (.of_frame rfl) (works_startBlank _)
  · exact .of_stop rfl

theorem works_startLabelLine (s : State) (h : HeadLabel) : s.Works (s.startLabelLine h) := by
  unfold State.startLabelLine
  split
  · exact works_startBlank s
  · extract_lets t
    have take : s.Works t := by
      unfold t
      split
      · exact .of_frame rfl
      · exact .refl s
    clear_value t
    refine take.trans ?_
    split
    · exact works_startBlank t
    · split
      · split
        · exact works_startBurn ..
        · exact .refl t
      · exact works_underrun ..

theorem works_startMove (s : State) : s.Works s.startMove := by
  unfold State.startMove State.beginAtHead
  split
  · exact .refl s
  · split
    · split
      · exact works_startBlank s
      · exact .trans (.of_frame rfl) (works_startLabelLine _ _)
    · exact works_startBlank s
  · split
    · exact works_startLabelLine ..
    · exact works_startBlank s
  · exact works_startBlank s

/-! ### The next work -/

theorem works_skipVoid (s : State) : s.Works s.skipVoid := by
  rw [skipVoid_frame]
  exact .of_frame rfl

theorem works_chooseStart (s : State) (offset : Int) : s.Works (s.onEngine (·.chooseStart offset)) := by
  unfold Engine.chooseStart
  dsimp only [State.onEngine]
  split <;> exact .of_frame rfl

theorem works_lookForWork (s : State) : s.Works s.lookForWork := by
  unfold State.lookForWork State.outOfWork
  refine (works_skipVoid s).trans ?_
  dsimp only
  split
  · exact works_chooseStart ..
  · split
    · exact .of_stop rfl
    · exact .of_frame rfl

theorem works_goOn (s : State) : s.Works s.goOn := (works_lookForWork s).trans (works_startMove _)

theorem works_lookFromPresenting (s : State) : s.Works s.lookFromPresenting := by
  unfold State.lookFromPresenting State.retract
  split
  · exact .refl s
  · refine (works_skipVoid s).trans ?_
    dsimp only
    split
    · split
      · exact .trans (.of_stop rfl) (works_goOn _)
      · exact .of_stop rfl
    · exact .refl _

theorem works_present (s : State) : s.Works s.present := .trans (.of_stop rfl) (works_lookFromPresenting _)

theorem works_dryTake (s : State) : s.Works s.dryTake := by
  have fuel (n : Nat) (s : State) : s.Works (dryTakeFuel n s) := by
    induction n generalizing s with
    | zero => exact .refl s
    | succ n ih =>
      unfold dryTakeFuel
      split
      · exact .refl s
      · split
        · refine .trans ?_ (ih _)
          rw [settle_frame]
          exact .of_frame rfl
        · exact .of_frame rfl
  unfold State.dryTake
  split
  · exact fuel 9 s
  · exact .refl s

theorem works_engineLook (s : State) : s.Works s.engineLook := by
  unfold State.engineLook
  split
  · exact works_goOn s
  · split
    · split
      · exact .trans (.of_frame rfl) (works_startLabelLine _ _)
      · exact .refl s
    · exact .refl s
  · exact works_lookFromPresenting s
  · exact works_dryTake s
  · exact .refl s

/-! ### The end of a step -/

theorem works_endAtHead (s : State) (h : HeadLabel) (o : LabelOutcome) : s.Works (s.endAtHead h o) := by
  unfold State.endAtHead
  rw [endLabel_frame]
  exact .of_frame rfl

theorem works_endIfDue (s : State) (h : HeadLabel) : s.Works (s.endIfDue h) := by
  unfold State.endIfDue
  split <;> split
  exacts [works_endAtHead .., .refl s, works_endAtHead .., .refl s]

theorem works_endsAtStep (s : State) : s.Works s.endsAtStep := by
  unfold State.endsAtStep
  extract_lets t spoiled entry ended
  have ends : s.Works ended := .trans (.of_frame rfl : s.Works t) (foldl_keeps State.Works .refl .trans works_endIfDue _ t)
  split
  · rw [flush_frame]
    exact ends.trans (.of_frame rfl)
  · exact ends

theorem works_endLine (s : State) (l : Line) : s.Works (s.endLine l) := by
  unfold State.endLine
  split
  · extract_lets counted handed
    have hands : s.Works handed := by
      unfold handed
      split <;> exact .of_frame rfl
    clear_value handed
    split
    · split
      · exact hands.trans (.of_frame rfl)
      · exact hands
    · exact hands
  · exact .refl s

theorem works_afterLabel (s : State) : s.Works s.afterLabel := by
  unfold State.afterLabel
  split
  · split
    · exact works_present s
    · exact .trans (.of_frame rfl) (works_startMove _)
  · exact works_goOn s

theorem works_countSearch (s : State) : s.Works s.countSearch := by
  unfold State.countSearch
  split
  · exact .of_frame rfl
  · exact .refl s

theorem works_feedSearch (s : State) (offset : Int) : s.Works (s.onEngine (·.feedSearch offset)) := by
  unfold Engine.feedSearch Engine.feedNext
  dsimp only [State.onEngine]
  split
  · split
    · split <;> exact .of_frame rfl
    · exact .of_frame rfl
  · split <;> exact .of_frame rfl
  · exact .refl s

theorem works_afterStep (s : State) (read : Bool) : s.Works (s.afterStep read) := by
  have search : s.Works (if read then s.countSearch.onEngine (·.feedSearch s.topOffset) else s.countSearch) := by
    refine .trans (works_countSearch s) ?_
    split
    · exact works_feedSearch ..
    · exact .refl _
  unfold State.afterStep
  split
  case h_1 => exact .refl s
  case h_2 =>
    split
    · exact works_startMove s
    · exact works_afterLabel s
  case h_3 =>
    split
    · exact (works_countSearch s).trans (works_goOn _)
    · exact (works_countSearch s).trans (works_startBlank _)
  case h_4 => exact works_startMove s
  case h_5 =>
    split
    · exact works_present s
    · exact works_startBlank s
  all_goals
    extract_lets t
    have searched : s.Works t := search
    clear_value t
    refine searched.trans ?_
    split
    · split
      · exact .trans (.of_stop rfl) (works_engineLook _)
      · exact works_startBlank t
    · exact works_startBlank t

end Sys2Proof.Machine
end

section
/-! PROOFS. Each operation of the engine leaves it sound: lines started, the next work, presenting, faults, dry run, FEED and the step. -/

namespace Sys2Proof.Machine

/-! ### Lines -/

/-- A blank line leaves the task, and what feeds for it, as they were (R134). -/
theorem sound_startBlank {s : State} (feeds : s.engine.Feeds) (none : s.engine.line = none) : s.startBlank.engine.sound := by
  unfold State.startBlank
  split
  · exact sound_of_feeds feeds (lineFits_of_unburned (unburned_of_none none))
  · refine sound_of_feeds ⟨feeds.mode, feeds.task, feeds.faults⟩ (lineFits_of_unburned ?_)
    rintro l ⟨⟩
    exact ⟨rfl, rfl, rfl⟩

theorem sound_startBurn {s : State} (feeds : s.engine.Feeds) (lines : s.engine.task = .lines) (none : s.engine.line = none) (y : Nat)
    (bits : List Bool) : (s.startBurn y bits).engine.sound := by
  unfold State.startBurn
  split
  · refine sound_of_feeds ⟨feeds.mode, feeds.task, feeds.faults⟩ ?_
    rintro l ⟨⟩
    exact ⟨nofun, fun _ => lines⟩
  · exact sound_of_feeds feeds (lineFits_of_unburned (unburned_of_none none))

/-- An underrun feeds the label on unburned, or stops the motor on its lines (R143, R144). -/
theorem sound_underrun {s : State} (feeds : s.engine.Feeds) (lines : s.engine.task = .lines) (none : s.engine.line = none)
    (h : HeadLabel) : (s.underrun h).engine.sound := by
  unfold State.underrun
  split
  · exact sound_startBlank (feeds_of_drive (d := s.engine) rfl feeds) none
  · exact sound_of_paused rfl lines rfl feeds.faults

theorem sound_startLabelLine {s : State} (feeds : s.engine.Feeds) (lines : s.engine.task = .lines) (none : s.engine.line = none)
    (h : HeadLabel) : (s.startLabelLine h).engine.sound := by
  unfold State.startLabelLine
  split
  · exact sound_startBlank feeds none
  · extract_lets t
    have same : t.engine = s.engine := by
      unfold t
      split <;> rfl
    clear_value t
    rw [← same] at feeds lines none
    split
    · exact sound_startBlank feeds none
    · split
      · split
        · exact sound_startBurn feeds lines none ..
        · exact sound_of_feeds feeds (lineFits_of_unburned (unburned_of_none none))
      · exact sound_underrun feeds lines none h

theorem sound_beginAtHead {s : State} (feeds : s.engine.Feeds) (burning : s.engine.mode = .burning) (none : s.engine.line = none)
    (start edge : Int) : (s.beginAtHead start edge).engine.sound := by
  unfold State.beginAtHead
  split
  · exact sound_startBlank feeds none
  · refine sound_startLabelLine ⟨?_, ?_, ?_⟩ rfl ?_ _
    exacts [burning, nofun, feeds.faults, none]

/-- The line a task calls for (R134, R141, R142); with no task none starts. -/
theorem sound_startMove {s : State} (ready : s.engine.Feeds ∨ s.engine.sound ∧ s.engine.task = .idle) (none : s.engine.line = none) :
    s.startMove.engine.sound := by
  obtain feeds | ⟨sound, idle⟩ := ready
  · unfold State.startMove
    split
    next task => exact absurd task feeds.task
    next task =>
      split
      · exact sound_beginAtHead feeds (by rw [feeds.mode, task]; rfl) none ..
      · exact sound_startBlank feeds none
    next task =>
      split
      · exact sound_startLabelLine feeds task none _
      · exact sound_startBlank feeds none
    · exact sound_startBlank feeds none
  · rw [State.startMove, idle]
    exact sound

/-! ### The next work -/

/-- The next work chosen: a task to feed for, or the motor stopped with none; the line in progress may run on, if it is fed unburned. -/
structure Engine.Chosen (d e : Engine) : Prop where
  ready : e.Feeds ∨ e.sound ∧ e.task = .idle
  line  : e.line = d.line ∨ e.line = none

theorem chosen_chooseStart {e : Engine} (faults : e.faults = .none) (offset : Int) : e.Chosen (e.chooseStart offset) := by
  unfold Engine.chooseStart
  dsimp only
  split <;> exact ⟨.inl ⟨rfl, nofun, faults⟩, .inl rfl⟩

theorem chosen_outOfWork {s : State} (faults : s.engine.faults = .none) : s.engine.Chosen s.outOfWork.engine := by
  unfold State.outOfWork
  split
  · exact ⟨.inr ⟨sound_of_still (.inl rfl) rfl rfl faults, rfl⟩, .inr rfl⟩
  · exact ⟨.inl ⟨rfl, nofun, faults⟩, .inl rfl⟩

theorem chosen_lookForWork {s : State} (faults : s.engine.faults = .none) : s.engine.Chosen s.lookForWork.engine := by
  rw [← skipVoid_engine s] at faults ⊢
  unfold State.lookForWork
  dsimp only
  split
  · exact chosen_chooseStart faults _
  · exact chosen_outOfWork faults

theorem sound_lookForWork {s : State} (faults : s.engine.faults = .none) (blank : s.engine.unburned) : s.lookForWork.engine.sound := by
  obtain ⟨feeds | ⟨sound, -⟩, line⟩ := chosen_lookForWork faults
  · refine sound_of_feeds feeds (lineFits_of_unburned ?_)
    obtain same | none := line
    · unfold Engine.unburned
      rwa [same]
    · exact unburned_of_none none
  · exact sound

theorem sound_goOn {s : State} (faults : s.engine.faults = .none) (none : s.engine.line = none) : s.goOn.engine.sound := by
  obtain ⟨ready, line⟩ := chosen_lookForWork faults
  exact sound_startMove ready (by obtain same | stopped := line <;> simp_all)

/-! ### Presenting and retracting -/

theorem sound_retract {s : State} (faults : s.engine.faults = .none) : s.retract.engine.sound := by
  unfold State.retract
  split
  · exact sound_goOn faults rfl
  · exact sound_of_still (.inr (.inr rfl)) rfl rfl faults

theorem sound_lookFromPresenting {s : State} (sound : s.engine.sound) (faults : s.engine.faults = .none) :
    s.lookFromPresenting.engine.sound := by
  unfold State.lookFromPresenting
  split
  · exact sound
  · rw [← skipVoid_engine s] at sound faults
    dsimp only
    split
    · exact sound_retract faults
    · exact sound

theorem sound_present {s : State} (faults : s.engine.faults = .none) : s.present.engine.sound :=
  sound_lookFromPresenting (sound_of_still (.inr (.inl rfl)) rfl rfl faults) faults

theorem sound_backFeed {s : State} (sound : s.engine.sound) : s.backFeed.engine.sound := by
  unfold State.backFeed
  split
  next retracting =>
    have faults : s.engine.faults = .none := noFault_of_sound sound (by rw [retracting]; rfl)
    dsimp only
    split
    · exact sound_goOn faults rfl
    · exact sound_of_drive (d := s.engine) rfl sound
  · exact sound

theorem sound_labelTaken {s : State} (sound : s.engine.sound) (presenting : s.engine.mode = .presenting) :
    s.labelTaken.engine.sound := by
  unfold State.labelTaken
  split
  · exact sound
  next h _ =>
    obtain ⟨-, -, -, same⟩ := drive_eq_iff.mp (endAtHead_drive s h .printed)
    exact sound_retract (same.trans (noFault_of_sound sound (by rw [presenting]; rfl)))

/-! ### Dry run -/

theorem dryTakeFuel_drive (n : Nat) (s : State) : (dryTakeFuel n s).engine.drive = s.engine.drive := by
  induction n generalizing s with
  | zero => rfl
  | succ n ih =>
    unfold dryTakeFuel
    split
    · rfl
    · split
      · rw [ih, settle_engine, skipBand_engine]
      · rfl

theorem dryTake_drive (s : State) : s.dryTake.engine.drive = s.engine.drive := by
  unfold State.dryTake
  split
  · exact dryTakeFuel_drive 9 s
  · rfl

theorem dryCancel_drive (s : State) (n : Nat) : (s.dryCancel n).engine.drive = s.engine.drive := by
  unfold State.dryCancel
  split
  · exact dryTake_drive s
  · split
    · rfl
    · rw [dryTake_drive, endLabel_drive]

/-! ### What the engine does when the ring or its state has changed -/

theorem sound_engineLook {s : State} (sound : s.engine.sound) : s.engineLook.engine.sound := by
  unfold State.engineLook
  split
  next stopped =>
    exact sound_goOn (noFault_of_sound sound (by rw [stopped]; rfl)) (rest_of_sound sound (by rw [stopped]; rfl)).2
  next paused =>
    obtain ⟨lines, none⟩ := paused_of_sound sound paused
    have faults := noFault_of_sound sound (by rw [paused]; rfl)
    split
    · split
      · refine sound_startLabelLine ⟨?_, ?_, ?_⟩ ?_ ?_ _
        exacts [(congrArg Task.feedsIn lines).symm, by simp [lines], faults, lines, none]
      · exact sound
    · exact sound
  next presenting => exact sound_lookFromPresenting sound (noFault_of_sound sound (by rw [presenting]; rfl))
  · exact sound_of_drive (dryTake_drive s) sound
  · exact sound

/-! ### Faults -/

/-- In FAULT with a fault standing and the motor stopped. -/
theorem sound_enterFault {s : State} (faults : s.engine.faults ≠ .none) : s.enterFault.engine.sound := by
  obtain ⟨mode, task, line, same⟩ : _ ∧ _ ∧ _ ∧ _ := by simpa [Engine.drive] using enterFault_drive s
  refine sound_of_rest (by rw [mode]; rfl) task line ?_
  unfold Engine.faultsFit
  rw [mode, same]
  exact faults

theorem isEmpty_iff {f : FaultSet} : f.isEmpty = true ↔ f = .none := beq_iff_eq

/-- A fault set put in place of the one before keeps the engine sound where it does not make a set empty that was not, nor one that was
empty not empty but where faults do not stop the engine. -/
theorem sound_withFaults {e : Engine} (sound : e.sound) {f : FaultSet} (fits : { e with faults := f }.faultsFit) :
    { e with faults := f }.sound := ⟨sound.1, fits⟩

theorem sound_joinFaults {s : State} (sound : s.engine.sound) {f : FaultSet} (larger : s.engine.faults ≠ .none → f ≠ .none) :
    (s.joinFaults f).engine.sound := by
  unfold State.joinFaults
  dsimp only
  split
  next enters =>
    simp only [Bool.and_eq_true, Bool.not_eq_true', ← Bool.not_eq_true, isEmpty_iff] at enters
    exact sound_enterFault enters.1.2
  next stays =>
    simp only [Bool.and_eq_true, Bool.not_eq_true', ← Bool.not_eq_true, isEmpty_iff] at stays
    refine sound_withFaults sound ?_
    have faults : s.engine.faultsFit := sound.2
    unfold Engine.faultsFit at faults ⊢
    dsimp only
    cases mode : s.engine.mode <;> simp only [mode] at faults ⊢
    case fault => exact larger faults
    all_goals
      by_contra full
      exact stays ⟨⟨faults, full⟩, by rw [mode]; rfl⟩

theorem sound_leaveFaults {s : State} (sound : s.engine.sound) {f : FaultSet} (smaller : s.engine.faults = .none → f = .none) :
    (s.leaveFaults f).engine.sound := by
  unfold State.leaveFaults
  dsimp only
  split
  next leaves =>
    simp only [Bool.and_eq_true, Bool.not_eq_true', ← Bool.not_eq_true, isEmpty_iff, decide_eq_true_eq] at leaves
    obtain ⟨task, line⟩ := rest_of_sound sound (by rw [leaves.2]; rfl)
    refine sound_engineLook ?_
    rw [postAll_engine]
    exact sound_of_still (.inl rfl) task line leaves.1.2
  next stays =>
    simp only [Bool.and_eq_true, Bool.not_eq_true', ← Bool.not_eq_true, isEmpty_iff, decide_eq_true_eq] at stays
    refine sound_withFaults sound ?_
    have faults : s.engine.faultsFit := sound.2
    unfold Engine.faultsFit at faults ⊢
    dsimp only
    cases mode : s.engine.mode <;> simp only [mode] at faults ⊢
    case fault => exact fun empty => stays ⟨⟨faults, empty⟩, mode⟩
    all_goals exact smaller faults

theorem put_true_ne_none (f : FaultSet) (k : FaultKind) : f.put k true ≠ .none := by
  cases k <;> simp [FaultSet.put, FaultSet.none]

theorem put_false_none (k : FaultKind) : FaultSet.none.put k false = .none := by cases k <;> rfl

theorem readingRaises_ne_none {s : State} {f : FaultSet} (some : f ≠ .none) : s.readingRaises f ≠ .none := by
  unfold State.readingRaises
  dsimp only
  split
  · exact put_true_ne_none _ _
  · split
    · exact put_true_ne_none _ _
    · exact some

theorem readingClears_none (s : State) : s.readingClears .none = .none := by
  unfold State.readingClears
  dsimp only
  split <;> split <;> simp [put_false_none]

theorem sound_judgeReading {s : State} (sound : s.engine.sound) : s.judgeReading.engine.sound := by
  have join {t : State} (sound : t.engine.sound) : (t.joinFaults (s.readingRaises t.engine.faults)).engine.sound :=
    sound_joinFaults sound readingRaises_ne_none
  have leave {t : State} (sound : t.engine.sound) : (t.leaveFaults (s.readingClears t.engine.faults)).engine.sound :=
    sound_leaveFaults sound fun none => by rw [none, readingClears_none]
  unfold State.judgeReading
  dsimp only
  split
  · exact join sound
  · split
    · exact leave sound
    · split
      · exact sound_joinFaults (leave (t := { s with freeTick := s.freeTick + 1 }) sound) readingRaises_ne_none
      · exact sound_leaveFaults (join (t := { s with freeTick := s.freeTick + 1 }) sound) fun none => by rw [none, readingClears_none]

end Sys2Proof.Machine
end

section
/-! PROOFS. Dry run left, a cancel, FEED and the forward step keep the engine sound; so does every command, and every step (O59). -/

namespace Sys2Proof.Machine

/-! ### Dry run -/

/-- DRY is left for STOPPED, or for FAULT with the faults that stand (R162). -/
theorem sound_leaveDry {s : State} (sound : s.engine.sound) (dry : s.engine.mode = .dry) : s.leaveDry.engine.sound := by
  unfold State.leaveDry
  extract_lets ending ended stopped emptied
  have drive : ended.engine.drive = s.engine.drive :=
    foldl_drive (fun s (l : LabelRecord) => endLabel_drive s l.job l.copy .dry false) ending s
  obtain ⟨-, task, line, -⟩ := drive_eq_iff.mp drive
  obtain ⟨idle, none⟩ := rest_of_sound sound (by rw [dry]; rfl)
  have same : emptied.engine = stopped.engine := settle_engine _
  split
  next empty =>
    refine sound_engineLook ?_
    rw [same] at empty ⊢
    exact sound_of_still (.inl rfl) (task.trans idle) (line.trans none) (isEmpty_iff.mp empty)
  next faulty => exact sound_enterFault (mt isEmpty_iff.mpr faulty)

theorem sound_dryNext {s : State} (sound : s.engine.sound) (dry : s.engine.mode = .dry) : s.dryNext.engine.sound := by
  unfold State.dryNext
  split
  · exact sound_leaveDry sound dry
  · exact sound_of_drive (dryTake_drive s) sound

theorem bandReport_engine (s : State) (i : Fin 8) (r : BandRecord) : (s.bandReport i r).engine = s.engine := by
  unfold State.bandReport
  split <;> rfl

theorem sound_consumeLine {s : State} (sound : s.engine.sound) : s.consumeLine.engine.sound := by
  have goes {t : State} (dry : s.engine.mode = .dry) (drive : t.engine.drive = s.engine.drive) : t.dryNext.engine.sound :=
    sound_dryNext (sound_of_drive drive sound) ((drive_eq_iff.mp drive).1.trans dry)
  unfold State.consumeLine
  split
  next dry _ _ =>
    split
    · exact sound
    · extract_lets handed reported ended
      have reports : reported.engine.drive = s.engine.drive := by
        show ((handed.bandReport _ _).onEngine _).engine.drive = _
        rw [engine_onEngine, bandReport_engine]
        rfl
      have ends : ended.engine.drive = s.engine.drive := by
        unfold ended
        split
        · rw [endLabel_drive, reports]
        · exact reports
      split
      · exact goes dry (endLabel_drive ..)
      · split
        · exact sound_of_drive (d := s.engine) rfl sound
        · exact goes dry (by rw [settle_engine, freeDryBand_engine, ends])
  · exact sound

theorem sound_takeDryRunOn {s : State} (sound : s.engine.sound) (p : Port) : (s.takeDryRunOn p).engine.sound := by
  unfold State.takeDryRunOn
  split
  next stopped =>
    obtain ⟨task, line⟩ := rest_of_sound sound (by rw [stopped]; rfl)
    rw [accept_engine, State.enterDry]
    refine sound_of_drive (dryTake_drive _) (sound_of_rest rfl task line trivial)
  · exact sound

theorem sound_takeDryRunOff {s : State} (sound : s.engine.sound) (p : Port) : (s.takeDryRunOff p).engine.sound := by
  unfold State.takeDryRunOff State.askToLeaveDry
  split
  next dry =>
    rw [accept_engine]
    split
    · exact sound_of_drive (d := s.engine) rfl sound
    · exact sound_leaveDry sound (by simpa using And.left (by simpa using dry))
  · exact sound

/-! ### A cancel -/

theorem sound_cancelAtEngine {s : State} (sound : s.engine.sound) (n : Nat) : (s.cancelAtEngine n).engine.sound := by
  have look (mode : s.engine.mode = .registering ∨ s.engine.mode = .burning) (other : s.engine.task ≠ .lines) :
      (if s.takeFull?.any (·.void) then s.lookForWork else s).engine.sound := by
    split
    · refine sound_lookForWork (feeds_of_sound sound mode).faults fun l line => ?_
      obtain ⟨blank, burned⟩ := sound.1.2 l line
      have unburned : l.burn = none := by_contra fun burns => other (burned burns)
      exact ⟨unburned, blank unburned⟩
    · exact sound
  have moves (mode : s.engine.mode = .registering ∨ s.engine.mode = .burning) : (match s.engine.task with
      | .seek | .approach .. => if s.takeFull?.any (·.void) then s.lookForWork else s
      | _ => s : State).engine.sound := by
    split
    next task => exact look mode (by simp [task])
    next task => exact look mode (by simp [task])
    · exact sound
  unfold State.cancelAtEngine
  split
  · exact sound_of_drive (dryCancel_drive s n) sound
  next mode => exact moves (.inl mode)
  next mode => exact moves (.inr mode)
  · exact sound_engineLook sound

theorem sound_takeJobCancel {s : State} (sound : s.engine.sound) (p : Port) (n : Nat) : (s.takeJobCancel p n).engine.sound := by
  unfold State.takeJobCancel State.cancelJob
  split
  · exact sound
  · split
    · exact sound
    · rw [accept_engine]
      split
      · exact sound
      · exact sound_cancelAtEngine (by rwa [settle_engine, cancelInRing_engine]) _

/-! ### FEED -/

/-- The searches of a FEED leave it a task of a FEED (R153). -/
theorem feedSearch_feeds {e : Engine} (feeds : e.Feeds) (offset : Int) :
    (e.feedSearch offset).Feeds ∧ (e.feedSearch offset).line = e.line := by
  have second (d : Engine) (mode : d.mode = .registering) (faults : d.faults = .none) (first : Int) :
      (d.feedNext offset first).Feeds ∧ (d.feedNext offset first).line = d.line := by
    unfold Engine.feedNext
    split <;> exact ⟨⟨mode, nofun, faults⟩, rfl⟩
  unfold Engine.feedSearch
  split
  next task =>
    have registering : e.mode = .registering := by rw [feeds.mode, task]; rfl
    dsimp only
    split
    · exact second { e.prune offset with feedCount := 0 } registering feeds.faults _
    · exact ⟨feeds_of_drive (d := e) rfl feeds, rfl⟩
  next task =>
    have registering : e.mode = .registering := by rw [feeds.mode, task]; rfl
    exact second (e.prune offset) registering feeds.faults _
  · exact ⟨feeds, rfl⟩

theorem sound_takeFeed {s : State} (sound : s.engine.sound) (p : Port) : (s.takeFeed p).engine.sound := by
  unfold State.takeFeed State.startFeed
  split
  next stopped =>
    obtain ⟨-, none⟩ := rest_of_sound sound (by rw [stopped]; rfl)
    have faults := noFault_of_sound sound (by rw [stopped]; rfl)
    obtain ⟨feeds, line⟩ := feedSearch_feeds
      (e := { s.engine with mode := .registering, task := .feedFirst, feedCount := 0 }) ⟨rfl, nofun, faults⟩ s.topOffset
    exact sound_startBlank feeds (line.trans none)
  · exact sound

/-! ### The forward step -/

theorem sound_afterLabel {s : State} (feeds : s.engine.Feeds) (none : s.engine.line = none) : s.afterLabel.engine.sound := by
  unfold State.afterLabel
  split
  · split
    · exact sound_present feeds.faults
    · exact sound_startMove (.inl ⟨rfl, nofun, feeds.faults⟩) none
  · exact sound_goOn feeds.faults none

theorem countSearch_drive (s : State) : s.countSearch.engine.drive = s.engine.drive := by
  unfold State.countSearch
  split <;> rfl

theorem sound_afterStep {s : State} (feeds : s.engine.Feeds) (none : s.engine.line = none) (read : Bool) :
    (s.afterStep read).engine.sound := by
  have counted : s.countSearch.engine.Feeds := feeds_of_drive (countSearch_drive s) feeds
  have idle : s.countSearch.engine.line = Option.none := (drive_eq_iff.mp (countSearch_drive s)).2.2.1.trans none
  have searched : ∀ t : State, t = (if read then s.countSearch.onEngine (·.feedSearch s.topOffset) else s.countSearch) →
      t.engine.Feeds ∧ t.engine.line = Option.none := by
    rintro t rfl
    split
    · obtain ⟨feeds, line⟩ := feedSearch_feeds counted s.topOffset
      exact ⟨feeds, line.trans idle⟩
    · exact ⟨counted, idle⟩
  unfold State.afterStep
  split
  case h_1 task => exact absurd task feeds.task
  case h_2 =>
    split
    · exact sound_startMove (.inl feeds) none
    · exact sound_afterLabel feeds none
  case h_3 =>
    split
    · exact sound_goOn counted.faults idle
    · exact sound_startBlank counted idle
  case h_4 => exact sound_startMove (.inl feeds) none
  case h_5 =>
    split
    · exact sound_present feeds.faults
    · exact sound_startBlank feeds none
  all_goals
    extract_lets t
    obtain ⟨feeds, none⟩ := searched t rfl
    split
    · split
      · exact sound_engineLook (sound_of_still (.inl rfl) rfl rfl feeds.faults)
      · exact sound_startBlank feeds none
    · exact sound_startBlank feeds none

/-- A step of the motor leaves what it feeds for, and ends the line in progress (R133). -/
theorem moved_feeds {s : State} (feeds : s.engine.Feeds) (l : Line) (gap : Bool) :
    ((s.motorSteps l gap).endLine l).engine.Feeds ∧ ((s.motorSteps l gap).endLine l).engine.line = none := by
  have drive : ((s.motorSteps l gap).endLine l).engine.drive = { s.engine with line := none }.drive :=
    (endLine_drive ..).trans (motorSteps_drive s l gap)
  exact ⟨feeds_of_drive drive ⟨feeds.mode, feeds.task, feeds.faults⟩, (drive_eq_iff.mp drive).2.2.1⟩

/-- The ends and the next work of a step (R141 to R148, R154). -/
theorem sound_workStep {s : State} (feeds : s.engine.Feeds) (none : s.engine.line = none) (read : Bool) :
    (s.endsAtStep.afterStep read).engine.sound ∧ (s.endsAtStep.afterStep read).engine.faults = .none :=
  ⟨sound_afterStep (feeds_of_drive (endsAtStep_drive s) feeds) ((drive_eq_iff.mp (endsAtStep_drive s)).2.2.1.trans none) read,
    ((works_endsAtStep s).trans (works_afterStep _ read)).faults.trans feeds.faults⟩

theorem sound_forwardStep {s : State} (sound : s.engine.sound) (gap : Bool) : (s.forwardStep gap).engine.sound := by
  unfold State.forwardStep
  split
  case h_3 => exact sound
  all_goals
    rename_i l mode _
    obtain ⟨feeds, none⟩ := moved_feeds (feeds_of_sound sound (by simp [mode])) l gap
    dsimp only
    generalize (s.motorSteps l gap).endLine l = t at *
    split
    · exact (sound_workStep feeds none _).1
    · split
      · exact sound_joinFaults (s := { t with freeTick := t.freeTick + 1 })
          (sound_of_feeds feeds (lineFits_of_unburned (unburned_of_none none))) fun faulty => absurd feeds.faults faulty
      · obtain ⟨sound, faults⟩ := sound_workStep (s := { t with freeTick := t.freeTick + 1 }) feeds none s.readsNext
        exact sound_joinFaults sound fun faulty => absurd faults faulty

/-! ### The other records and commands -/

theorem sound_takeHeadProfile {s : State} (sound : s.engine.sound) (p : Port) (h : HeadProfile) :
    (s.takeHeadProfile p h).engine.sound := by
  unfold State.takeHeadProfile State.loadProfile
  split
  · exact sound
  · split
    · exact sound
    · extract_lets loaded
      have loads : loaded.engine.sound := sound_of_drive (d := s.engine) rfl sound
      rw [accept_engine]
      split
      · exact sound_joinFaults loads fun _ => put_true_ne_none _ _
      · exact loads

theorem sound_takeRunSettings {s : State} (sound : s.engine.sound) (p : Port) (r : Option RunSettings) :
    (s.takeRunSettings p r).engine.sound := by
  have load (r : RunSettings) : (s.loadSettings r).engine.sound := by
    unfold State.loadSettings
    dsimp only
    split
    next unset =>
      obtain ⟨task, line⟩ := rest_of_sound sound (by rw [unset]; rfl)
      split
      next empty => exact sound_of_still (.inl rfl) task line (isEmpty_iff.mp empty)
      next faulty => exact sound_enterFault (mt isEmpty_iff.mpr faulty)
    · exact sound
  unfold State.takeRunSettings
  split
  · exact sound
  · exact sound
  · split
    · exact sound
    · split
      · exact sound
      · exact load _

theorem lidClosed_none : FaultSet.none.lidClosed = .none := rfl

/-- The strobe events keep a line fed unburned without phases and dots (R129, R130). -/
theorem sound_onLine {s : State} (sound : s.engine.sound) {f : Line → Line} (burn : ∀ l, (f l).burn = l.burn)
    (blank : ∀ l : Line, l.phases = [] ∧ l.enabled = [] → (f l).phases = [] ∧ (f l).enabled = []) : (s.onLine f).engine.sound := by
  refine sound_of_line sound rfl rfl rfl (fun none => Option.map_eq_none_iff.mpr none) ?_
  intro m line
  obtain ⟨l, before, rfl⟩ := Option.map_eq_some_iff.mp line
  obtain ⟨unburned, burned⟩ := sound.1.2 l before
  exact ⟨fun none => blank l (unburned (burn l ▸ none)), fun some => burned (burn l ▸ some)⟩

theorem endPhase_burn (l : Line) : l.endPhase.burn = l.burn := by
  unfold Line.endPhase
  split <;> rfl

theorem endPhase_blank (l : Line) (blank : l.phases = [] ∧ l.enabled = []) : l.endPhase.phases = [] ∧ l.endPhase.enabled = [] := by
  unfold Line.endPhase
  split
  · simp [blank.1]
  · exact blank

theorem endGap_burn (l : Line) : l.endGap.burn = l.burn := by
  unfold Line.endGap
  split <;> rfl

theorem endGap_blank (l : Line) (blank : l.phases = [] ∧ l.enabled = []) : l.endGap.phases = [] ∧ l.endGap.enabled = [] := by
  unfold Line.endGap
  split
  · simp [blank.1]
  · exact blank

theorem disableDot_blank (dot : Nat) (l : Line) (blank : l.phases = [] ∧ l.enabled = []) :
    (l.disableDot dot).phases = [] ∧ (l.disableDot dot).enabled = [] := by simp [Line.disableDot, blank]

/-! ### Every command -/

/-- A command's outcome keeps the engine sound. -/
def State.SoundInto (s : State) (o : Host.Outcome State Fault Refusal) : Prop :=
  ∀ t, o = .next t → s.engine.sound → t.engine.sound

theorem soundInto_running {s : State} {f : State → State} (h : s.engine.sound → (f s).engine.sound) : s.SoundInto (s.running f) := by
  intro t next sound
  unfold State.running at next
  split at next
  · cases next
    exact sound
  · cases next
    exact h sound

theorem soundInto_takeRecord {s : State} {p : Port} {kind : Byte} {body : List Byte} {act : State → State}
    (h : ∀ t : State, t.engine.sound → (act t).engine.sound) : s.SoundInto (s.takeRecord p kind body act) := by
  refine soundInto_running fun sound => ?_
  split
  · exact h _ sound
  · exact sound

theorem soundInto_record {α : Type} {s : State} {p : Port} {k : Kind} {body : List Byte} {parse : List Byte → Option α}
    {act : α → State → State} (h : ∀ (r : α) (t : State), t.engine.sound → (act r t).engine.sound) :
    s.SoundInto (s.record p k body parse act) := by
  refine soundInto_takeRecord fun t sound => ?_
  split
  · exact sound
  · exact h _ t sound

/-- A record that leaves the engine. -/
theorem soundInto_record_of_engine {α : Type} {s : State} {p : Port} {k : Kind} {body : List Byte} {parse : List Byte → Option α}
    {act : α → State → State} (h : ∀ (r : α) (t : State), (act r t).engine = t.engine) : s.SoundInto (s.record p k body parse act) :=
  soundInto_record fun r t sound => by rwa [h]

theorem soundInto_running_of_engine {s : State} {f : State → State} (h : (f s).engine = s.engine) : s.SoundInto (s.running f) :=
  soundInto_running fun sound => by rwa [h]

/-- Every command keeps the engine sound. -/
theorem exec_sound (c : Instr) (s : State) : s.SoundInto (exec c s) := by
  cases c with
  | headProfile p => exact soundInto_record fun r t sound => sound_takeHeadProfile sound p r
  | runSettings p => exact soundInto_record fun r t sound => sound_takeRunSettings sound p r
  | retainScope p => exact soundInto_record_of_engine fun r t => takeRetainScope_engine t p r
  | portSettings p => exact soundInto_record_of_engine fun r t => takePortSettings_engine t p r
  | formBegin p => exact soundInto_record_of_engine fun r t => takeFormBegin_engine t p r
  | fieldDef p => exact soundInto_record_of_engine fun r t => takeFieldDef_engine t p r
  | stencilDef p => exact soundInto_record_of_engine fun r t => takeStencilDef_engine t p r
  | formEnd p => exact soundInto_record_of_engine fun _ t => takeFormEnd_engine t p
  | formDelete p => exact soundInto_record_of_engine fun r t => takeFormDelete_engine t p r
  | formQuery p => exact soundInto_record_of_engine fun r t => takeFormQuery_engine t p r
  | counterSet p => exact soundInto_record_of_engine fun r t => takeCounterSet_engine t p r
  | counterFree p => exact soundInto_record_of_engine fun r t => takeCounterFree_engine t p r
  | counterQuery p => exact soundInto_record_of_engine fun r t => takeCounterQuery_engine t p r
  | jobOpen p => exact soundInto_record_of_engine fun r t => takeJobOpen_engine t p r
  | fieldData p => exact soundInto_record_of_engine fun (r : Nat × Text) t => takeFieldData_engine t p r.1 r.2
  | jobClose p => exact soundInto_record_of_engine fun _ t => takeJobClose_engine t p
  | discard p =>
    unfold exec execDiscard
    refine soundInto_record_of_engine fun _ t => ?_
    exact dropOpenJob_engine t p
  | jobHold p => exact soundInto_record_of_engine fun r t => takeJobHold_engine t p r
  | jobRelease p => exact soundInto_record_of_engine fun r t => takeJobRelease_engine t p r
  | jobCancel p => exact soundInto_record fun r t sound => sound_takeJobCancel sound p r
  | jobQuery p => exact soundInto_record_of_engine fun r t => takeJobQuery_engine t p r
  | contribute p => exact soundInto_record_of_engine fun r t => takeContribute_engine t p r
  | feed p => exact soundInto_record fun _ t sound => sound_takeFeed sound p
  | dryRunOn p => exact soundInto_record fun _ t sound => sound_takeDryRunOn sound p
  | dryRunOff p => exact soundInto_record fun _ t sound => sound_takeDryRunOff sound p
  | positionWatch p => exact soundInto_record_of_engine fun w t => takePositionWatch_engine t p w
  | engineQuery | vectorQuery | reportRead =>
    simp only [exec, execEngineQuery, execVectorQuery, execReportRead]
    refine soundInto_record_of_engine fun _ _ => ?_
    rfl
  | portReset p =>
    unfold exec execPortReset
    refine soundInto_record_of_engine fun _ t => ?_
    exact resetPort_engine t p
  | unknownKind p kind body =>
    show s.SoundInto (if (kindOf kind).isSome then .next s else _)
    split
    · exact fun t next sound => by cases next; exact sound
    · exact soundInto_takeRecord fun t sound => sound
  | receiveByte p char error =>
    refine soundInto_running_of_engine (f := fun s => if error then s else s.receive p char) ?_
    split
    · rfl
    · exact receive_engine ..
  | frameTimeout | mergeTimerSecond =>
    simp only [exec, execFrameTimeout, execMergeTimerSecond]
    refine soundInto_running_of_engine ?_
    rfl
  | lineBreak p => exact soundInto_running_of_engine (f := (·.resetPort p)) (resetPort_engine s p)
  | deviceResetAssert cut =>
    refine soundInto_running (f := fun s => if cut then s.cutRewrite.hold else s.hold) fun sound => ?_
    have held (t : State) (sound : t.engine.sound) : t.hold.engine.sound :=
      sound_of_line sound rfl rfl rfl (fun _ => rfl) (lineFits_of_unburned (unburned_of_none rfl))
    split
    · exact held _ (by rwa [(cutRewrite_frame s).1])
    · exact held s sound
  | powerUp low lid =>
    intro t next _
    cases next
    unfold State.powerUp
    split <;> exact sound_of_rest rfl rfl rfl trivial
  | sensorReading t v =>
    exact soundInto_running (f := fun s => (s.storeReading t v).judgeReading) fun sound =>
      sound_judgeReading (s := s.storeReading t v) (sound_of_drive (d := s.engine) rfl sound)
  | lidSwitchOpen =>
    exact soundInto_running (f := fun s => s.joinFaults (s.engine.faults.put .headOpen true)) fun sound =>
      sound_joinFaults sound fun _ => put_true_ne_none _ _
  | lidSwitchClosed =>
    exact soundInto_running (f := fun s => s.leaveFaults s.engine.faults.lidClosed) fun sound =>
      sound_leaveFaults sound fun none => by rw [none, lidClosed_none]
  | composerAsk =>
    refine soundInto_running_of_engine ?_
    split
    · exact answerAsk_engine s
    · rfl
  | bandTake => exact soundInto_running_of_engine (takeBuffer_engine s)
  | bandFillComplete =>
    refine soundInto_running fun sound => ?_
    split
    · exact sound_engineLook (by rwa [finishFill_engine])
    · exact sound
  | mergeTimerExpiry n => exact soundInto_running_of_engine (f := (·.timerExpires n)) (timerExpires_engine s n)
  | poolEntryDiscard key p field =>
    exact soundInto_running_of_engine (f := (·.discardEntry key p field)) (dropEntries_engine ..)
  | forwardStep gap => exact soundInto_running (f := (·.forwardStep gap)) fun sound => sound_forwardStep sound gap
  | strobePhaseEnd =>
    exact soundInto_running (f := (·.onLine Line.endPhase)) fun sound => sound_onLine sound endPhase_burn endPhase_blank
  | phaseGapEnd =>
    exact soundInto_running (f := (·.onLine Line.endGap)) fun sound => sound_onLine sound endGap_burn endGap_blank
  | dotClassTimeEnd dot =>
    exact soundInto_running (f := (·.onLine (·.disableDot dot))) fun sound =>
      sound_onLine sound (fun _ => rfl) (disableDot_blank dot)
  | takenSensorSample absent =>
    refine soundInto_running fun sound => ?_
    split
    · exact sound_of_drive (d := s.engine) rfl sound
    · exact sound
  | labelTaken =>
    refine soundInto_running fun sound => ?_
    split
    next taken =>
      simp only [State.samples, Bool.and_eq_true, decide_eq_true_eq] at taken
      exact sound_labelTaken sound taken.1.1
    · exact sound
  | backFeedStep => exact soundInto_running sound_backFeed
  | dryLineConsumed => exact soundInto_running sound_consumeLine

/-- Settles O59: every command and the idle second keep the engine sound, and in a sound engine only a burned line heats. -/
theorem engineStaysSound : Obligations.EngineStaysSound := by
  refine ⟨fun s t next sound => ?_, fun e sound heats => burning_of_heats sound heats⟩
  unfold step at next
  split at next
  · cases next
    rwa [idle_engine]
  · exact exec_sound _ _ t next sound

end Sys2Proof.Machine
end

section
/-! PROOFS. The strobe events within a line (O53), and the class times of a line (O52). -/

namespace Sys2Proof.Machine

/-! ### Strobe events (R129) -/

/-- A strobe event changes the line in progress alone. -/
theorem onLine_of_line {s : State} {l : Line} (line : s.engine.line = some l) (f : Line → Line) :
    s.onLine f = { s with engine := { s.engine with line := some (f l) } } := by
  rw [State.onLine, State.onEngine, line]
  rfl

/-- Settles O53: each event's equation on the line in progress. -/
theorem strobesFollowThePlan : Obligations.StrobesFollowThePlan := by
  intro s l runs line
  have exec (f : Line → Line) : s.running (·.onLine f) = .next { s with engine := { s.engine with line := some (f l) } } :=
    (running_of_not_held runs _).trans (congrArg _ (onLine_of_line line f))
  refine ⟨fun ph rest on plan => ?_, fun ph rest gap plan => ?_, fun dot => ⟨_, exec (·.disableDot dot), fun x => ?_⟩⟩
  · refine (exec Line.endPhase).trans ?_
    simp only [Line.endPhase, on, plan, List.tail_cons, List.isEmpty_iff]
  · refine (exec Line.endGap).trans ?_
    simp only [Line.endGap, gap, plan, List.head?_cons, Option.map_some, Option.getD_some]
  · simp

/-! ### Rounding (00_scope, Arithmetic) -/

/-- A rounded quotient is the one number no more than a half away, a half rounded up. -/
theorem roundDiv_eq_iff {a b m : Nat} (pos : 0 < b) : roundDiv a b = m ↔ 2 * b * m ≤ 2 * a + b ∧ 2 * a + b < 2 * b * (m + 1) := by
  have divisor : 0 < 2 * b := by omega
  rw [roundDiv, mul_comm (2 * b) m, mul_comm (2 * b) (m + 1), ← Nat.le_div_iff_mul_le divisor, ← Nat.div_lt_iff_lt_mul divisor]
  omega

theorem roundDiv_mul_self (a : Nat) {b : Nat} (pos : 0 < b) : roundDiv (a * b) b = a := by
  rw [roundDiv_eq_iff pos]
  constructor <;> nlinarith

theorem roundDiv_mono {a c : Nat} (le : a ≤ c) (b : Nat) : roundDiv a b ≤ roundDiv c b := Nat.div_le_div_right (by omega)

/-! ### Class times (R121 to R124) -/

theorem classTime_mono (t2 : Nat) {v w : Nat} (le : v ≤ w) : classTime t2 v ≤ classTime t2 w :=
  max_le_max_left _ (min_le_min_left _ (roundDiv_mono (Nat.mul_le_mul_left t2 le) 1024))

theorem classTime_bounds (t2 w : Nat) : 100 ≤ classTime t2 w ∧ classTime t2 w ≤ 1800 :=
  ⟨le_max_left .., max_le (by decide) (min_le_left ..)⟩

/-- At 25 degrees and 24.0 V nothing changes the base time (R122, R123). -/
theorem unweightedTime_nominal (darkness : Nat) : unweightedTime darkness 25 240 = 300 + 25 * darkness := by
  have warm : temperatureFactor 25 = 1024 := rfl
  have full : voltageFactor 240 = 1024 := rfl
  rw [unweightedTime, warm, full, roundDiv_mul_self _ (by decide), roundDiv_mul_self _ (by decide), baseTime]

theorem temperatureFactor_cast (t : Int) : (temperatureFactor t : Int) = max 768 (min 1280 (1024 + (25 - t) * 8)) :=
  Int.toNat_of_nonneg (le_max_of_le_left (by decide))

theorem classTime_lasts (t2 weight : Nat) : ∃ m, (2 * 1024 * m ≤ 2 * (t2 * weight) + 1024 ∧ 2 * (t2 * weight) + 1024 < 2 * 1024 * (m + 1)) ∧
    classTime t2 weight = max 100 (min 1800 m) :=
  ⟨_, (roundDiv_eq_iff (by decide)).mp rfl, rfl⟩

/-- Settles O52: the classes differ by their weights alone, and each stage is a rounded quotient. -/
theorem classTimesFallFromAToD : Obligations.ClassTimesFallFromAToD := by
  refine ⟨fun r t v b c d => ⟨(classTime_bounds ..).1, classTime_mono _ d, classTime_mono _ c, classTime_mono _ b, (classTime_bounds ..).2, ?_⟩,
    fun r t v temperature voltage t1 t2 => ?_⟩
  · rintro rfl rfl dark
    show classTime (unweightedTime r.darkness 25 240) 1024 = _
    rw [unweightedTime_nominal, classTime, roundDiv_mul_self _ (by decide)]
    omega
  · intro rounds warm volts first second
    have factor : temperatureFactor t = temperature := by
      have same : (temperatureFactor t : Int) = temperature := (temperatureFactor_cast t).trans warm.symm
      exact_mod_cast same
    have square : 0 < (max 200 (min 280 v)) ^ 2 := by positivity
    have unweighted : unweightedTime r.darkness t v = t2 := by
      rw [unweightedTime, factor, voltageFactor, (roundDiv_eq_iff square).mpr volts, baseTime, (roundDiv_eq_iff (by decide)).mpr first,
        (roundDiv_eq_iff (by decide)).mpr second]
    simp only [classTimes, unweighted]
    exact ⟨classTime_lasts .., classTime_lasts .., classTime_lasts .., classTime_lasts ..⟩

end Sys2Proof.Machine
end

section
/-! PROOFS. The phase plan of a line: chunks of a group's dots, groups in their turns, each burning dot in one phase (O51). -/

namespace Sys2Proof.Machine

/-! ### Chunks (R127) -/

theorem chunksFuel_flatten {p : Nat} (pos : 1 ≤ p) (fuel : Nat) (l : List Nat) (enough : l.length ≤ fuel) :
    (chunksFuel p fuel l).flatten = l := by
  induction fuel generalizing l with
  | zero => simpa [chunksFuel] using enough
  | succ n ih =>
    cases l with
    | nil => simp [chunksFuel]
    | cons x l =>
      rw [chunksFuel, List.flatten_cons, ih, List.take_append_drop]
      · simp only [List.length_drop, List.length_cons] at enough ⊢
        omega
      · simp

/-- Each chunk is a stretch of the list, not empty, of at most P. -/
theorem mem_chunksFuel {p : Nat} (pos : 1 ≤ p) {fuel : Nat} {l c : List Nat} (mem : c ∈ chunksFuel p fuel l) :
    c ≠ [] ∧ c.length ≤ p ∧ c.Sublist l := by
  induction fuel generalizing l with
  | zero => simp [chunksFuel] at mem
  | succ n ih =>
    cases l with
    | nil => simp [chunksFuel] at mem
    | cons x l =>
      rw [chunksFuel, List.mem_cons] at mem
      · obtain rfl | later := mem
        · refine ⟨?_, List.length_take_le .., List.take_sublist ..⟩
          rw [ne_eq, List.take_eq_nil_iff]
          simp
          omega
        · obtain ⟨some, short, within⟩ := ih later
          exact ⟨some, short, within.trans (List.drop_sublist ..)⟩
      · simp

/-- The chunks of an ascending list ascend, and all but the last hold P. -/
theorem chunksFuel_pairwise {p : Nat} (pos : 1 ≤ p) (fuel : Nat) {l : List Nat} (ascends : l.Pairwise (· < ·)) :
    (chunksFuel p fuel l).Pairwise fun a b => a.length = p ∧ ∀ x ∈ a, ∀ z ∈ b, x < z := by
  induction fuel generalizing l with
  | zero => simp [chunksFuel]
  | succ n ih =>
    cases l with
    | nil => simp [chunksFuel]
    | cons x l =>
      rw [chunksFuel]
      · refine List.pairwise_cons.mpr ⟨fun b later => ?_, ih (ascends.drop)⟩
        obtain ⟨some, -, within⟩ := mem_chunksFuel pos later
        refine ⟨?_, fun y first z second => ?_⟩
        · have more := within.length_le
          have := List.length_pos_iff.mpr some
          rw [List.length_drop] at more
          rw [List.length_take]
          omega
        · rw [← List.take_append_drop p (x :: l)] at ascends
          exact (List.pairwise_append.mp ascends).2.2 y first z (within.subset second)
      · simp

/-! ### Burning dots and their groups (R127, 00_scope) -/

theorem mem_burningDots_lt {bits : List Bool} {x : Nat} (mem : x ∈ burningDots bits) : x < bits.length := by
  obtain ⟨⟨b, y⟩, among, rfl⟩ := List.mem_map.mp mem
  have := (List.mem_zipIdx (List.mem_filter.mp among).1)
  omega

theorem burningDots_pairwise (bits : List Bool) : (burningDots bits).Pairwise (· < ·) := by
  refine List.pairwise_map.mpr (List.Pairwise.filter _ ?_)
  have indices : (bits.zipIdx.map Prod.snd).Pairwise (· < ·) := by
    rw [List.zipIdx_map_snd]
    exact List.pairwise_lt_range'
  exact List.pairwise_map.mp indices

/-- The dots of group k are those whose place divided by the group's width is k. -/
theorem groupDots_eq {d g : Nat} (width : 0 < d / g) (k : Nat) (dots : List Nat) :
    groupDots d g k dots = dots.filter fun x => x / (d / g) = k := by
  refine List.filter_congr fun x _ => ?_
  rw [← Bool.decide_and, decide_eq_decide, ← Nat.le_div_iff_mul_le width, ← Nat.div_lt_iff_lt_mul width]
  omega

/-- A list parted by a number of each entry is a rearrangement of its parts. -/
theorem flatMap_filter_perm (f : Nat → Nat) (g : Nat) (l : List Nat) :
    ((List.range g).flatMap fun k => l.filter fun x => f x = k).Perm (l.filter fun x => f x < g) := by
  induction g with
  | zero => simp
  | succ g ih =>
    rw [List.range_succ, List.flatMap_append, List.flatMap_singleton]
    refine (ih.append_right _).trans ?_
    have parts := List.filter_append_perm (fun x => f x < g) (l.filter fun x => f x < g + 1)
    rw [List.filter_filter, List.filter_filter] at parts
    refine List.Perm.trans (.of_eq ?_) parts
    congr 1 <;> refine List.filter_congr fun x _ => ?_
    · by_cases h : f x < g <;> simp [h]
      omega
    · rw [← decide_not, ← Bool.decide_and, decide_eq_decide]
      omega

/-! ### Turns (R128) -/

/-- The group that fires in a turn. -/
def FireOrder.turn (order : FireOrder) (g y k : Nat) : Nat :=
  match order with
  | .sequential => (y % g + k) % g
  | .interleaved => y % g ^^^ k

theorem groupOrder_eq (order : FireOrder) (g y : Nat) : groupOrder order g y = (List.range g).map (order.turn g y) := by
  cases order <;> rfl

/-- In G turns each group has one. -/
theorem groupOrder_perm (order : FireOrder) {g n : Nat} (power : g = 2 ^ n) (y : Nat) : (groupOrder order g y).Perm (List.range g) := by
  have pos : 0 < g := by rw [power]; positivity
  have within (k : Nat) (lt : k < g) : order.turn g y k < g := by
    cases order with
    | sequential => exact Nat.mod_lt _ pos
    | interleaved =>
      have := Nat.mod_lt y pos
      subst power
      exact Nat.xor_lt_two_pow this lt
  have once (i j : Nat) (hi : i < g) (hj : j < g) (same : order.turn g y i = order.turn g y j) : i = j := by
    cases order with
    | sequential =>
      have : i ≡ j [MOD g] := Nat.ModEq.add_left_cancel' (y % g) same
      rwa [Nat.ModEq, Nat.mod_eq_of_lt hi, Nat.mod_eq_of_lt hj] at this
    | interleaved => exact Nat.xor_right_injective same
  rw [groupOrder_eq]
  refine (List.subperm_of_subset ?_ ?_).perm_of_length_le (by simp)
  · refine List.Nodup.map_on (fun i hi j hj => once i j (List.mem_range.mp hi) (List.mem_range.mp hj)) List.nodup_range
  · intro x mem
    obtain ⟨k, lt, rfl⟩ := List.mem_map.mp mem
    exact List.mem_range.mpr (within k (List.mem_range.mp lt))

/-! ### The highest class (R129) -/

/-- No phase ends before the class time of one of its dots. -/
theorem highestClass_lasts {t : ClassTimes} (dc : t.d ≤ t.c) (cb : t.c ≤ t.b) (ba : t.b ≤ t.a) {l : List DotClass} {k : DotClass}
    (mem : k ∈ l) : t.of k ≤ t.of (highestClass l) := by
  unfold highestClass
  split
  · cases k <;> simp only [ClassTimes.of] <;> omega
  next noA =>
    split
    · cases k with
      | a => simp [mem] at noA
      | _ => simp only [ClassTimes.of]; omega
    next noB =>
      split
      · cases k with
        | a => simp [mem] at noA
        | b => simp [mem] at noB
        | _ => simp only [ClassTimes.of]; omega
      next noC =>
        cases k with
        | a => simp [mem] at noA
        | b => simp [mem] at noB
        | c => simp [mem] at noC
        | d => rfl

/-! ### The plan -/

/-- The groups of a head in range: a power of two of them, that parts its dots evenly (R183). -/
theorem inRange_groups {h : HeadProfile} (range : h.inRange = true) :
    (∃ n, h.groups = 2 ^ n) ∧ 0 < h.dots / h.groups ∧ h.dots = h.groups * (h.dots / h.groups) := by
  simp only [HeadProfile.inRange, headDotCounts, Bool.and_eq_true, List.contains_iff_mem, List.mem_cons, List.not_mem_nil, or_false] at range
  obtain ⟨⟨⟨⟨⟨dots, groups⟩, -⟩, -⟩, -⟩, -⟩ := range
  obtain groups | groups | groups := groups <;> rw [groups]
  · exact ⟨⟨1, rfl⟩, by omega, by omega⟩
  · exact ⟨⟨2, rfl⟩, by omega, by omega⟩
  · exact ⟨⟨3, rfl⟩, by omega, by omega⟩

theorem groupPhases_dots (times : ClassTimes) (cls : Nat → DotClass) (p k : Nat) (dots : List Nat) :
    (groupPhases times cls p k dots).flatMap Phase.dots = (chunks p dots).flatten := by
  simp [groupPhases, List.flatMap_map, List.flatMap_id']

theorem chunks_flatten {p : Nat} (pos : 1 ≤ p) (l : List Nat) : (chunks p l).flatten = l := chunksFuel_flatten pos _ l le_rfl

/-- A phase of the plan is a chunk of its group's burning dots (R127). -/
theorem mem_phasePlan {h : HeadProfile} {r : RunSettings} {times : ClassTimes} {cls : Nat → DotClass} {y : Nat} {bits : List Bool}
    {ph : Phase} : ph ∈ phasePlan h r times cls y bits ↔ ∃ k ∈ groupOrder r.fireOrder h.groups y,
      ∃ c ∈ chunks r.budget (groupDots h.dots h.groups k (burningDots bits)),
        ph = { group := k, dots := c, time := times.of (highestClass (c.map cls)) } := by
  simp [phasePlan, groupPhases, List.mem_flatMap, eq_comm]

/-- Settles O51: the plan's dots are the groups' dots joined, and its phases stand as the turns and the chunks do. -/
theorem phasePlanFiresEveryDotOnce : Obligations.PhasePlanFiresEveryDotOnce := by
  intro h r times cls y bits range pos size plan
  obtain ⟨⟨n, power⟩, width, even⟩ := inRange_groups range
  have turns := groupOrder_perm r.fireOrder power y
  have group (k : Nat) : groupDots h.dots h.groups k (burningDots bits) = (burningDots bits).filter fun x => x / (h.dots / h.groups) = k :=
    groupDots_eq width k _
  refine ⟨?_, fun ph mem => ?_, ?_⟩
  · have joined : plan.flatMap Phase.dots =
        (groupOrder r.fireOrder h.groups y).flatMap fun k => (burningDots bits).filter fun x => x / (h.dots / h.groups) = k := by
      simp only [plan, phasePlan, List.flatMap_assoc, groupPhases_dots, chunks_flatten pos, group]
    have all : (burningDots bits).filter (fun x => x / (h.dots / h.groups) < h.groups) = burningDots bits := by
      refine List.filter_eq_self.mpr fun x mem => decide_eq_true ((Nat.div_lt_iff_lt_mul width).mpr ?_)
      rw [← even, ← size]
      exact mem_burningDots_lt mem
    rw [joined]
    exact (turns.flatMap_right _).trans ((flatMap_filter_perm ..).trans (.of_eq all))
  · obtain ⟨k, turn, c, chunk, rfl⟩ := mem_phasePlan.mp mem
    obtain ⟨some, short, within⟩ := mem_chunksFuel pos chunk
    rw [group] at within
    refine ⟨some, short, List.mem_range.mp (turns.mem_iff.mp turn), fun x dot => ?_,
      (List.Pairwise.filter _ (burningDots_pairwise bits)).sublist within, fun dc cb ba x dot => ?_⟩
    · simpa using (List.mem_filter.mp (within.subset dot)).2
    · exact highestClass_lasts dc cb ba (List.mem_map_of_mem dot)
  · refine List.pairwise_flatMap.mpr ⟨fun k _ => ?_, ?_⟩
    · refine List.pairwise_map.mpr ((chunksFuel_pairwise pos _ ?_).imp fun ends => .inl ⟨rfl, ends⟩)
      rw [group]
      exact List.Pairwise.filter _ (burningDots_pairwise bits)
    · rw [groupOrder_eq]
      refine List.pairwise_map.mpr (List.pairwise_lt_range.imp_of_mem fun {i j} _ last later a first b second => .inr ?_)
      obtain ⟨_, -, rfl⟩ := List.mem_map.mp first
      obtain ⟨_, -, rfl⟩ := List.mem_map.mp second
      exact ⟨i, j, later, List.mem_range.mp last, rfl, rfl⟩

end Sys2Proof.Machine
end

section
/-! PROOFS. Events once pending stay pending through the engine's next work and an entry into FAULT; and what an entry into FAULT makes of
the engine (R151, R176). -/

namespace Sys2Proof.Machine

/-! ### Events that stay pending -/

/-- From one state to the next every event pending at a port stays pending there (R176). -/
def State.KeepsEvents (s t : State) : Prop := ∀ q e, Event.isIn e (s.port q).pending = true → e.isIn (t.port q).pending = true

namespace State.KeepsEvents

theorem refl (s : State) : s.KeepsEvents s := fun _ _ => id

theorem trans {a b c : State} (h : a.KeepsEvents b) (k : b.KeepsEvents c) : a.KeepsEvents c := fun q e => k q e ∘ h q e

theorem of_pending {s t : State} (same : ∀ q, (t.port q).pending = (s.port q).pending) : s.KeepsEvents t := fun q e h => by
  rwa [same]

theorem of_ports {s t : State} (same : t.ports = s.ports) : s.KeepsEvents t := of_pending fun q => by rw [State.port, same]; rfl

theorem onPort {s : State} {p : Port} {f : PortState → PortState}
    (keeps : ∀ e, Event.isIn e (s.port p).pending = true → e.isIn (f (s.port p)).pending = true) : s.KeepsEvents (s.onPort p f) := by
  intro q e h
  by_cases same : p = q
  · subst same
    rw [port_onPort_self]
    exact keeps e h
  · rwa [port_onPort_ne _ _ same]

end State.KeepsEvents

theorem isIn_place {q : PortState} {r : Report} {e : Event} (h : e.isIn q.pending = true) : e.isIn (q.place r).pending = true := by
  unfold PortState.place
  rw [isIn_post, Bool.or_eq_true]
  split <;> exact .inl h

theorem keepsEvents_placeCompletion (s : State) (c : Completion) : s.KeepsEvents (s.placeCompletion c) := by
  unfold State.placeCompletion
  refine foldl_keeps State.KeepsEvents .refl .trans (fun s p => ?_) _ s
  split
  · exact .onPort fun _ => isIn_place
  · exact .refl s

theorem keepsEvents_settle (s : State) : s.KeepsEvents s.settle := .of_pending fun q => by
  obtain ⟨w, port, -⟩ := settle_port s q
  rw [port]

theorem keepsEvents_endLabel (s : State) (job copy : Nat) (o : LabelOutcome) (mismatch : Bool) :
    s.KeepsEvents (s.endLabel job copy o mismatch) := by
  have count (t : State) (j : Job) : t.KeepsEvents (t.endCounted job j o) := by
    unfold State.endCounted
    dsimp only
    split
    · refine .of_pending fun q => ?_
      rw [leaveQueue_port]
      split <;> rfl
    · split <;> exact .of_ports rfl
  by_cases unknown : s.job? job = none ∨ s.label? job copy = none
  · rw [endLabel_unknown unknown]
    exact .of_ports rfl
  · push Not at unknown
    obtain ⟨j, queued⟩ := Option.ne_none_iff_exists'.mp unknown.1
    obtain ⟨l, found⟩ := Option.ne_none_iff_exists'.mp unknown.2
    rw [endLabel_known queued found]
    have report := keepsEvents_placeCompletion s (completionOf j l o mismatch)
    generalize s.placeCompletion (completionOf j l o mismatch) = t at report ⊢
    have off : t.KeepsEvents (t.labelOff job copy) := .of_ports rfl
    exact ((report.trans off).trans (count _ j)).trans (keepsEvents_settle _)

theorem keepsEvents_endAtHead (s : State) (h : HeadLabel) (o : LabelOutcome) : s.KeepsEvents (s.endAtHead h o) := by
  have ends := keepsEvents_endLabel s h.job h.copy o (s.mismatch h)
  unfold State.endAtHead
  generalize s.endLabel h.job h.copy o (s.mismatch h) = t at ends ⊢
  exact ends.trans (.of_ports rfl)

theorem keepsEvents_headsFaulted (s : State) : s.KeepsEvents s.headsFaulted :=
  foldl_keeps State.KeepsEvents .refl .trans (fun t h => keepsEvents_endAtHead t h (s.faultOutcome h)) _ s

theorem keepsEvents_flush (s : State) (first : Option RedoEntry) : s.KeepsEvents (s.flush first) :=
  State.KeepsEvents.trans (b := { s with ring := .empty, hand := none, redo := s.flushEntries first ++ s.redo }) (.of_ports rfl)
    (keepsEvents_settle _)

theorem keepsEvents_skipVoid (s : State) : s.KeepsEvents s.skipVoid := by
  have fuel (n : Nat) (s : State) : s.KeepsEvents (skipVoidFuel n s) := by
    induction n generalizing s with
    | zero => exact .refl s
    | succ n ih =>
      unfold skipVoidFuel
      split
      · split
        · exact (State.KeepsEvents.trans (.of_ports rfl) (keepsEvents_settle s.skipBand)).trans (ih _)
        · exact .refl s
      · exact .refl s
  exact fuel 8 s

theorem keepsEvents_goOn (s : State) : s.KeepsEvents s.goOn := by
  have look : s.skipVoid.KeepsEvents s.lookForWork := by
    unfold State.lookForWork
    dsimp only
    split
    · exact .of_ports rfl
    · rw [outOfWork_frame]
      exact .of_ports rfl
  refine ((keepsEvents_skipVoid s).trans look).trans ?_
  rw [State.goOn, startMove_frame]
  exact .of_ports rfl

/-! ### An event at every port -/

/-- What is pending at a port once an event is posted to each of some ports. -/
theorem isIn_posts (l : List Port) (s : State) (q : Port) (e e' : Event) :
    e'.isIn ((l.foldl (fun s p => s.post p e) s).port q).pending = true ↔ e'.isIn (s.port q).pending = true ∨ q ∈ l ∧ e' = e := by
  induction l generalizing s with
  | nil => simp
  | cons p l ih =>
    rw [List.foldl_cons, ih, isIn_port_post, List.mem_cons]
    constructor
    · rintro ((h | ⟨rfl, rfl⟩) | ⟨mem, rfl⟩) <;> simp_all
    · rintro (h | ⟨rfl | mem, rfl⟩) <;> simp_all

theorem isIn_postAll (s : State) (q : Port) (e e' : Event) :
    e'.isIn ((s.postAll e).port q).pending = true ↔ e'.isIn (s.port q).pending = true ∨ e' = e := by
  rw [State.postAll, isIn_posts]
  simp

/-! ### The entry into FAULT -/

/-- The labels at the head ended leave the rest of the engine's work as it was. -/
theorem works_headsFaulted (s : State) : s.Works s.headsFaulted :=
  foldl_keeps State.Works .refl .trans (fun s h => works_endAtHead s h _) _ s

theorem enterFault_engine (s : State) :
    s.enterFault.engine = (s.onEngine Engine.motorStop).headsFaulted.engine.faultCleared s.sensorOffset := by
  rw [enterFault_eq, postAll_engine, engine_onEngine, flush_engine]
  rfl

/-- What an entry into FAULT leaves of the engine (R151): HP, the readings and the fault set stay, the motor has stopped. -/
structure Engine.FaultOf (d e : Engine) : Prop where
  mode        : e.mode = .fault
  hp          : e.hp = d.hp
  temperature : e.temperature = d.temperature
  voltage     : e.voltage = d.voltage
  hot         : e.hot = d.hot
  faults      : e.faults = d.faults
  line        : e.line = none
  edges       : e.edges = []
  registered  : e.registered = false
  gap         : e.gap = false
  gapLength   : e.gapLength = 0

theorem faultOf_enterFault (s : State) : s.engine.FaultOf s.enterFault.engine := by
  have works : s.Works (s.onEngine Engine.motorStop).headsFaulted := .trans (.of_stop rfl) (works_headsFaulted _)
  rw [enterFault_engine]
  refine ⟨rfl, works.hp, works.temperature, works.voltage, works.hot, works.faults, ?_, rfl, rfl, rfl, rfl⟩
  exact (drive_eq_iff.mp (foldl_drive (fun s h => endAtHead_drive s h _) _ (s.onEngine Engine.motorStop))).2.2.1

/-- An entry into FAULT posts ENGINE-FAULT at every port, and what was pending stays (R151). -/
theorem enterFault_pending (s : State) (q : Port) (e : Event) (pending : e.isIn (s.port q).pending = true ∨ e = .engineFault) :
    e.isIn (s.enterFault.port q).pending = true := by
  rw [enterFault_eq, isIn_postAll]
  exact pending.imp_left fun h => keepsEvents_flush _ _ q e (keepsEvents_headsFaulted (s.onEngine Engine.motorStop) q e h)

end Sys2Proof.Machine
end

section
/-! PROOFS. A sensor reading stored and judged: what it clears and raises, in every state of the engine (O42). -/

namespace Sys2Proof.Machine

/-! ### Fault sets (R150) -/

/-- The fault set replaced, and nothing else. -/
def State.withFaults (s : State) (f : FaultSet) : State := s.onEngine fun e => { e with faults := f }

/-- The faults a reading leaves: OVERHEAT while it is warm, SUPPLY-LOW while the supply is low (R150). -/
def FaultSet.cleared (f : FaultSet) (warm low : Bool) : FaultSet :=
  { f with overheat := f.overheat && warm, supplyLow := f.supplyLow && low }

/-- The faults a reading raises, put in (R150). -/
def FaultSet.raised (f : FaultSet) (heats drops : Bool) : FaultSet :=
  { f with overheat := heats || f.overheat, supplyLow := drops || f.supplyLow }

theorem cleared_none (warm low : Bool) : FaultSet.none.cleared warm low = .none := rfl

theorem raised_eq_none {f : FaultSet} {heats drops : Bool} (none : f.raised heats drops = .none) :
    f = .none ∧ heats = false ∧ drops = false := by
  obtain ⟨headOpen, overheat, supplyLow, mediaOut, noGap⟩ := f
  simp_all [FaultSet.raised, FaultSet.none]

theorem raised_false (f : FaultSet) : f.raised false false = f := rfl

/-- What a reading raises it does not clear, so the order of the two does not matter to the set. -/
theorem cleared_raised {warm low heats drops : Bool} (hot : heats = true → warm = true) (weak : drops = true → low = true) (f : FaultSet) :
    (f.raised heats drops).cleared warm low = (f.cleared warm low).raised heats drops := by
  cases heats <;> cases drops <;> simp_all [FaultSet.raised, FaultSet.cleared]

/-! ### The set alone changes (R151, R160) -/

theorem joinFaults_alone {s : State} {f : FaultSet}
    (stays : s.engine.faults = .none → f = .none ∨ s.engine.mode.entersFault = false) : s.joinFaults f = s.withFaults f := by
  refine if_neg fun enters => ?_
  simp only [Bool.and_eq_true, Bool.not_eq_true', ← Bool.not_eq_true, isEmpty_iff] at enters
  obtain ⟨⟨empty, some⟩, mode⟩ := enters
  simp [mode, some] at stays
  exact stays empty

theorem joinFaults_enters {s : State} {f : FaultSet} (empty : s.engine.faults = .none) (some : f ≠ .none)
    (mode : s.engine.mode.entersFault = true) : s.joinFaults f = (s.withFaults f).enterFault := by
  refine if_pos ?_
  simp only [Bool.and_eq_true, Bool.not_eq_true', ← Bool.not_eq_true, isEmpty_iff]
  exact ⟨⟨empty, some⟩, mode⟩

theorem leaveFaults_alone {s : State} {f : FaultSet} (stays : s.engine.mode = .fault → f ≠ .none) : s.leaveFaults f = s.withFaults f := by
  refine if_neg fun leaves => ?_
  simp only [Bool.and_eq_true, Bool.not_eq_true', ← Bool.not_eq_true, isEmpty_iff, decide_eq_true_eq] at leaves
  exact stays leaves.2 leaves.1.2

/-- With the last fault the engine leaves FAULT for STOPPED and looks for work (R152). -/
theorem leaveFaults_last {s : State} (fault : s.engine.mode = .fault) (some : s.engine.faults ≠ .none) : s.leaveFaults .none =
    (((s.withFaults .none).onEngine fun e => { e with mode := .stopped }).postAll .engineReady).goOn := by
  refine (if_pos ?_).trans rfl
  simp only [Bool.and_eq_true, Bool.not_eq_true', ← Bool.not_eq_true, isEmpty_iff, decide_eq_true_eq]
  exact ⟨⟨some, trivial⟩, fault⟩

/-! ### Going on from STOPPED -/

theorem startBlank_mode (s : State) : s.startBlank.engine.mode = s.engine.mode := by rw [startBlank_frame]

theorem startBurn_mode (s : State) (y : Nat) (bits : List Bool) : (s.startBurn y bits).engine.mode = s.engine.mode := by
  rw [startBurn_frame]

/-- The next line of a label leaves the engine's state, or PAUSES it at an underrun (R142 to R145). -/
theorem startLabelLine_mode (s : State) (h : HeadLabel) :
    (s.startLabelLine h).engine.mode = s.engine.mode ∨ (s.startLabelLine h).engine.mode = .paused := by
  unfold State.startLabelLine
  split
  · exact .inl (startBlank_mode s)
  · extract_lets t
    have take : t.engine.mode = s.engine.mode := by
      unfold t
      split <;> rfl
    clear_value t
    rw [← take]
    split
    · exact .inl (startBlank_mode t)
    · split
      · split
        · exact .inl (startBurn_mode ..)
        · exact .inl rfl
      · unfold State.underrun
        split
        · exact .inl (startBlank_mode _)
        · exact .inr rfl

theorem startMove_mode (s : State) : s.startMove.engine.mode = s.engine.mode ∨ s.startMove.engine.mode = .paused := by
  unfold State.startMove State.beginAtHead
  split
  · exact .inl rfl
  · split
    · split
      · exact .inl (startBlank_mode s)
      · exact startLabelLine_mode ..
    · exact .inl (startBlank_mode s)
  · split
    · exact startLabelLine_mode ..
    · exact .inl (startBlank_mode s)
  · exact .inl (startBlank_mode s)

/-- Wherever the next work leads, a fault would stop the engine there (R141, R147, R151). -/
theorem goOn_entersFault (s : State) : s.goOn.engine.mode.entersFault = true := by
  have look : s.lookForWork.engine.mode.entersFault = true := by
    unfold State.lookForWork State.outOfWork Engine.chooseStart
    dsimp only
    split
    · rw [engine_onEngine]
      split <;> rfl
    · split <;> rfl
  obtain same | paused := startMove_mode s.lookForWork
  · rwa [State.goOn, same]
  · rw [State.goOn, paused]
    rfl

/-- With no band at the take position and no label at the head the engine stops (R147). -/
theorem goOn_of_nothing {s : State} (heads : s.engine.heads = []) (none : s.takeFull? = none) :
    s.goOn = s.onEngine fun e => { e.motorStop with mode := .stopped, task := .idle } := by
  have skip : s.skipVoid = s := by simp only [State.skipVoid, skipVoidFuel, none]
  have ready : s.readyBand? = Option.none := by rw [State.readyBand?, none]; rfl
  have stops : s.outOfWork = s.onEngine fun e => { e.motorStop with mode := .stopped, task := .idle } := by
    simp only [State.outOfWork, heads, List.filter_nil, List.map_nil]
  simp only [State.goOn, State.lookForWork, skip, ready, Option.isSome_none, Bool.false_eq_true, if_false, stops]
  rfl

theorem takeFull?_of_free {s : State} (free : ∀ i, (s.buffer i).state = .free) : s.takeFull? = none := by
  rw [State.takeFull?]
  simp [free]

theorem ne_fault_of_enters {m : EngineMode} (enters : m.entersFault = true) : m ≠ .fault := by
  rintro rfl
  cases enters

/-- What leaving FAULT leaves (R152): no fault stands, the readings are as they were, and ENGINE-READY is pending at every port. -/
structure State.Ready (s t : State) : Prop where
  frame       : t = { s with engine := t.engine, ports := t.ports, ring := t.ring, labels := t.labels, queue := t.queue }
  faults      : t.engine.faults = .none
  mode        : t.engine.mode.entersFault = true
  temperature : t.engine.temperature = s.engine.temperature
  voltage     : t.engine.voltage = s.engine.voltage
  hot         : t.engine.hot = s.engine.hot
  pending     : ∀ p, Event.engineReady.isIn (t.port p).pending = true
  idle        : s.engine.heads = [] → (∀ i, (s.buffer i).state = .free) → t.engine.mode = .stopped

theorem ready_leaveFaults {s : State} (fault : s.engine.mode = .fault) (some : s.engine.faults ≠ .none) :
    s.Ready (s.leaveFaults .none) := by
  rw [leaveFaults_last fault some]
  set stopped := ((s.withFaults .none).onEngine fun e => { e with mode := .stopped }).postAll .engineReady
  have works := works_goOn stopped
  refine ⟨?_, works.faults, goOn_entersFault _, works.temperature, works.voltage, works.hot, fun p => ?_, fun heads free => ?_⟩
  · rw [goOn_frame]
    rfl
  · exact keepsEvents_goOn stopped p _ ((isIn_postAll ..).mpr (.inr rfl))
  · have none : stopped.takeFull? = none := takeFull?_of_free free
    rw [goOn_of_nothing (s := stopped) heads none]
    rfl

/-! ### Readings judged -/

/-- What the latest readings clear and raise: warm is T above what clears OVERHEAT, low V10 below what clears SUPPLY-LOW (R150). -/
structure State.Judges (s : State) (warm low heats drops : Bool) : Prop where
  clears : ∀ f, s.readingClears f = f.cleared warm low
  raises : ∀ f, s.readingRaises f = f.raised heats drops
  hot    : heats = true → warm = true
  weak   : drops = true → low = true

section
variable {s : State} {warm low heats drops : Bool}

/-- A reading that clears nothing joins what it raises to the set. -/
theorem judgeReading_raises (judges : s.Judges warm low heats drops) (same : s.engine.faults.cleared warm low = s.engine.faults) :
    s.judgeReading = s.joinFaults (s.engine.faults.raised heats drops) := by
  unfold State.judgeReading
  dsimp only
  rw [judges.clears, if_pos same, judges.raises]

/-- A reading that clears and raises nothing new takes what it clears out of the set. -/
theorem judgeReading_clears (judges : s.Judges warm low heats drops) (some : s.engine.faults.cleared warm low ≠ s.engine.faults)
    (same : s.engine.faults.raised heats drops = s.engine.faults) :
    s.judgeReading = s.leaveFaults (s.engine.faults.cleared warm low) := by
  unfold State.judgeReading
  dsimp only
  rw [judges.clears, if_neg some, judges.raises, if_pos same]

/-- A reading that clears one fault and raises another takes either first (R152; log 4). -/
theorem judgeReading_both (judges : s.Judges warm low heats drops) (some : s.engine.faults.cleared warm low ≠ s.engine.faults)
    (more : s.engine.faults.raised heats drops ≠ s.engine.faults) :
    let t := { s with freeTick := s.freeTick + 1 }
    let left := t.leaveFaults (s.engine.faults.cleared warm low)
    let joined := t.joinFaults (s.engine.faults.raised heats drops)
    s.judgeReading = left.joinFaults (left.engine.faults.raised heats drops) ∨
      s.judgeReading = joined.leaveFaults (joined.engine.faults.cleared warm low) := by
  intro t left joined
  unfold State.judgeReading
  dsimp only
  rw [judges.clears, if_neg some, judges.raises, if_neg more]
  split
  · exact .inl (by rw [judges.raises])
  · exact .inr (by rw [judges.clears])

/-- The fault set a reading leaves. -/
def FaultSet.judged (f : FaultSet) (warm low heats drops : Bool) : FaultSet := (f.cleared warm low).raised heats drops

/-- Where faults do not stop the engine, and where a fault keeps it in FAULT, a reading changes the set alone (R151, R160). -/
theorem judgeReading_alone (judges : s.Judges warm low heats drops)
    (mode : s.engine.mode = .unset ∨ s.engine.mode = .dry ∨ s.engine.mode = .fault ∧ s.engine.faults.cleared warm low ≠ .none) :
    ∃ n, s.judgeReading = { s.withFaults (s.engine.faults.judged warm low heats drops) with freeTick := n } ∧
      (s.engine.faults.cleared warm low = s.engine.faults ∨ s.engine.faults.raised heats drops = s.engine.faults → n = s.freeTick) := by
  have off : s.engine.mode.entersFault = false := by obtain mode | mode | ⟨mode, -⟩ := mode <;> rw [mode] <;> rfl
  have kept (fault : s.engine.mode = .fault) : s.engine.faults.cleared warm low ≠ .none := by
    obtain mode | mode | ⟨-, kept⟩ := mode
    · cases fault.symm.trans mode
    · cases fault.symm.trans mode
    · exact kept
  have stays (fault : s.engine.mode = .fault) : s.engine.faults.judged warm low heats drops ≠ .none := fun none =>
    kept fault (raised_eq_none none).1
  have swap := cleared_raised judges.hot judges.weak s.engine.faults
  by_cases same : s.engine.faults.cleared warm low = s.engine.faults
  · refine ⟨_, ?_, fun _ => rfl⟩
    rw [judgeReading_raises judges same, joinFaults_alone fun _ => .inr off, FaultSet.judged, same]
    rfl
  · by_cases less : s.engine.faults.raised heats drops = s.engine.faults
    · refine ⟨_, ?_, fun _ => rfl⟩
      rw [judgeReading_clears judges same less, leaveFaults_alone kept, FaultSet.judged, ← swap, less]
      rfl
    · refine ⟨s.freeTick + 1, ?_, fun either => (either.elim same less).elim⟩
      obtain left | joined := judgeReading_both judges same less
      · rw [left, leaveFaults_alone (by exact kept), joinFaults_alone fun _ => .inr (by exact off)]
        rfl
      · rw [joined, joinFaults_alone fun _ => .inr (by exact off), leaveFaults_alone]
        · simp only [State.withFaults, engine_onEngine, swap]
          rfl
        · intro fault
          rw [State.withFaults, engine_onEngine, swap]
          exact stays fault

end

/-! ### Readings stored (R119, R120) -/

/-- The engine with a reading stored under a head profile (R119, R120). -/
def Engine.withReading (e : Engine) (h : HeadProfile) (temp : Int) (volt : Nat) : Engine :=
  { e with
    temperature := max (-20) (min 120 temp), voltage := volt,
    hot := if e.hot then decide ((h.threshold : Int) - 5 < temp) else decide ((h.threshold : Int) ≤ temp) }

theorem exec_sensorReading {s : State} (runs : s.held = false) (temp : Int) (volt : Nat) :
    exec (.sensorReading temp volt) s = .next (s.storeReading temp volt).judgeReading :=
  running_of_not_held runs fun s => (s.storeReading temp volt).judgeReading

/-- Within a head's thresholds hot mode is judged by T as delivered, clamped or not (R119, R120). -/
theorem storeReading_profiled {s : State} {h : HeadProfile} (profile : s.profile = some h) (high : h.threshold ≤ 75)
    (low : 45 ≤ h.threshold) (temp : Int) (volt : Nat) :
    s.storeReading temp volt = s.onEngine fun e => e.withReading h temp volt := by
  have judged (hot : Bool) : judgeHot h.threshold (max (-20) (min 120 temp)) hot =
      if hot then decide ((h.threshold : Int) - 5 < temp) else decide ((h.threshold : Int) ≤ temp) := by
    unfold judgeHot
    cases hot with
    | true =>
      simp only [if_true, ← decide_not, decide_eq_decide]
      omega
    | false =>
      simp only [Bool.false_eq_true, if_false, decide_eq_decide]
      omega
  simp only [State.storeReading, clampInt, profile, Option.elim_some, judged]
  rfl

/-- What a reading clears and raises under a head profile (R150). -/
theorem judges_profiled {s : State} {h : HeadProfile} (profile : s.profile = some h) (high : h.threshold ≤ 75)
    (low : 45 ≤ h.threshold) (temp : Int) (volt : Nat) :
    (s.onEngine fun e => e.withReading h temp volt).Judges (decide ((h.threshold : Int) < temp)) (decide (volt < 195))
      (decide ((h.threshold : Int) + 15 ≤ temp)) (decide (volt < 190)) where
  clears f := by
    have cool : max (-20) (min 120 temp) ≤ (h.threshold : Int) ↔ ¬ (h.threshold : Int) < temp := by omega
    simp only [State.readingClears, onEngine_profile, profile, Option.any_some, engine_onEngine, Engine.withReading, decide_eq_true_eq,
      cool, FaultSet.cleared]
    by_cases warm : (h.threshold : Int) < temp <;> by_cases weak : volt < 195 <;>
      simp [warm, weak, FaultSet.put, Nat.not_le.mpr, Nat.le_of_not_lt]
  raises f := by
    have heats : (h.threshold : Int) + 15 ≤ max (-20) (min 120 temp) ↔ (h.threshold : Int) + 15 ≤ temp := by omega
    simp only [State.readingRaises, onEngine_profile, profile, Option.any_some, engine_onEngine, Engine.withReading,
      HeadProfile.overheats, decide_eq_true_eq, heats, FaultSet.raised]
    by_cases hot : (h.threshold : Int) + 15 ≤ temp <;> by_cases weak : volt < 190 <;> simp [hot, weak, FaultSet.put]
  hot := by simp only [decide_eq_true_eq]; omega
  weak := by simp only [decide_eq_true_eq]; omega

theorem storeReading_unprofiled {s : State} (none : s.profile = none) (temp : Int) (volt : Nat) :
    s.storeReading temp volt = s.onEngine fun e => { e with temperature := max (-20) (min 120 temp), voltage := volt } := by
  simp only [State.storeReading, none]
  rfl

/-- Before a head profile the voltage alone is judged (R150, R183). -/
theorem judges_unprofiled {s : State} (none : s.profile = none) (temp : Int) (volt : Nat) :
    (s.onEngine fun e => { e with temperature := max (-20) (min 120 temp), voltage := volt }).Judges true (decide (volt < 195)) false
      (decide (volt < 190)) where
  clears f := by
    simp only [State.readingClears, onEngine_profile, none, engine_onEngine, FaultSet.cleared]
    by_cases weak : volt < 195 <;> simp [weak, FaultSet.put, Nat.not_le.mpr, Nat.le_of_not_lt]
  raises f := by
    simp only [State.readingRaises, onEngine_profile, none, engine_onEngine, FaultSet.raised]
    by_cases weak : volt < 190 <;> simp [weak, FaultSet.put]
  hot := nofun
  weak := by simp only [decide_eq_true_eq]; omega

/-! ### The obligation, by the state of the engine -/

/-- A reading with no fault standing raises what it raises, and stops the engine where faults do (R150, R151). -/
theorem judgeReading_none {s : State} {warm low heats drops : Bool} (judges : s.Judges warm low heats drops)
    (none : s.engine.faults = .none) :
    (heats = false → drops = false → s.judgeReading = s) ∧
    (heats = true ∨ drops = true →
      s.judgeReading.engine.temperature = s.engine.temperature ∧ s.judgeReading.engine.voltage = s.engine.voltage ∧
      s.judgeReading.engine.faults = FaultSet.none.raised heats drops ∧
      (s.engine.mode.entersFault = true → s.judgeReading.engine.mode = .fault) ∧
      (s.engine.mode.entersFault = false → s.judgeReading.engine.mode = s.engine.mode) ∧
      s.judgeReading = { s with
        engine := s.judgeReading.engine, ports := s.judgeReading.ports, ring := s.judgeReading.ring, hand := s.judgeReading.hand,
        labels := s.judgeReading.labels, queue := s.judgeReading.queue, redo := s.judgeReading.redo }) := by
  have joins := judgeReading_raises judges (by rw [none, cleared_none])
  rw [none] at joins
  refine ⟨fun cool strong => ?_, fun raised => ?_⟩
  · rw [joins, cool, strong, raised_false, joinFaults_alone fun _ => .inl rfl, State.withFaults, ← none]
    rfl
  · have some : FaultSet.none.raised heats drops ≠ .none := fun same => by
      obtain ⟨-, cool, strong⟩ := raised_eq_none same
      simp [cool, strong] at raised
    cases mode : s.engine.mode.entersFault with
    | true =>
      have fault := faultOf_enterFault (s.withFaults (FaultSet.none.raised heats drops))
      rw [joins, joinFaults_enters none some mode]
      refine ⟨fault.temperature, fault.voltage, fault.faults, fun _ => fault.mode, nofun, ?_⟩
      rw [enterFault_frame]
      rfl
    | false =>
      rw [joins, joinFaults_alone fun _ => .inr mode]
      exact ⟨rfl, rfl, rfl, nofun, fun _ => rfl, rfl⟩

/-- A reading that clears every fault standing and raises another leaves FAULT and enters it again, or keeps it with the new set
(R151, R152; log 4). -/
theorem judgeReading_renews {s : State} {warm low heats drops : Bool} (judges : s.Judges warm low heats drops)
    (fault : s.engine.mode = .fault) (some : s.engine.faults ≠ .none) (gone : s.engine.faults.cleared warm low = .none)
    (raised : heats = true ∨ drops = true) :
    s.judgeReading = { s.withFaults (s.engine.faults.judged warm low heats drops) with freeTick := s.freeTick + 1 } ∨
    s.judgeReading.engine.mode = .fault ∧ s.judgeReading.engine.faults = s.engine.faults.judged warm low heats drops ∧
      s.judgeReading.engine.temperature = s.engine.temperature ∧ s.judgeReading.engine.voltage = s.engine.voltage ∧
      s.judgeReading.engine.hot = s.engine.hot ∧
      (∀ p, Event.engineReady.isIn (s.judgeReading.port p).pending = true ∧ Event.engineFault.isIn (s.judgeReading.port p).pending = true) ∧
      s.judgeReading = { s with
        engine := s.judgeReading.engine, ports := s.judgeReading.ports, ring := s.judgeReading.ring, hand := s.judgeReading.hand,
        labels := s.judgeReading.labels, queue := s.judgeReading.queue, redo := s.judgeReading.redo, freeTick := s.freeTick + 1 } := by
  have swap := cleared_raised judges.hot judges.weak s.engine.faults
  have renewed : FaultSet.none.raised heats drops ≠ .none := fun same => by
    obtain ⟨-, cool, strong⟩ := raised_eq_none same
    simp [cool, strong] at raised
  have same : s.engine.faults.judged warm low heats drops = FaultSet.none.raised heats drops := by rw [FaultSet.judged, gone]
  obtain left | joined := judgeReading_both judges (by rw [gone]; exact some.symm) fun less => renewed (by rw [← same, FaultSet.judged, ← swap, less, gone])
  · have ready : State.Ready { s with freeTick := s.freeTick + 1 } (State.leaveFaults { s with freeTick := s.freeTick + 1 } .none) :=
      ready_leaveFaults fault some
    rw [gone] at left
    generalize State.leaveFaults { s with freeTick := s.freeTick + 1 } .none = t at ready left
    rw [ready.faults, joinFaults_enters ready.faults renewed ready.mode] at left
    have entered := faultOf_enterFault (t.withFaults (FaultSet.none.raised heats drops))
    have events := enterFault_pending (t.withFaults (FaultSet.none.raised heats drops))
    rw [left, same]
    refine .inr ⟨entered.mode, entered.faults, entered.temperature.trans ready.temperature, entered.voltage.trans ready.voltage,
      entered.hot.trans ready.hot, fun p => ⟨events p _ (.inl (ready.pending p)), events p _ (.inr rfl)⟩, ?_⟩
    rw [enterFault_frame, State.withFaults, State.onEngine, ready.frame]
  · left
    rw [joined, joinFaults_alone fun empty => by exact absurd empty some, leaveFaults_alone]
    · simp only [State.withFaults, engine_onEngine, swap]
      rfl
    · intro _
      rw [State.withFaults, engine_onEngine, swap, ← FaultSet.judged, same]
      exact renewed

/-- Settles O42: a reading stored is judged by its four comparisons, and each clause is a case of the engine's state and of the set. -/
theorem readingsAreStoredAndJudged : Obligations.ReadingsAreStoredAndJudged := by
  refine ⟨fun s temp volt h runs profile none high low => ?_, fun s temp volt h runs profile high low => ?_,
    fun s temp volt runs none unset => ?_⟩
  · have exec := exec_sensorReading runs temp volt
    rw [storeReading_profiled profile high low] at exec
    have judges := judges_profiled profile high low temp volt
    obtain ⟨quiet, raises⟩ := judgeReading_none judges none
    refine ⟨fun cool strong => ?_, fun raised => ?_⟩
    · rw [exec, quiet (by simpa using cool) (by simpa using strong)]
      rfl
    · obtain ⟨temperature, voltage, faults, enters, stays, frame⟩ := raises (by simpa using raised)
      refine ⟨_, exec, temperature, voltage, ?_, ?_, enters, stays, frame⟩
      · rw [faults]
        simp [FaultSet.raised, FaultSet.none]
      · rw [faults]
        simp [FaultSet.raised, FaultSet.none]
  · have exec := exec_sensorReading runs temp volt
    rw [storeReading_profiled profile high low] at exec
    have judges := judges_profiled profile high low temp volt
    have alone := judgeReading_alone judges
    intro f after e
    refine ⟨fun mode => ?_, fun fault some cool strong => ⟨fun left => ?_, fun gone => ?_⟩, ?_⟩
    · obtain ⟨n, same, -⟩ := alone (mode.elim .inl fun dry => .inr (.inl dry))
      exact ⟨n, exec.trans (congrArg _ same)⟩
    · have same : after = s.engine.faults.cleared (decide ((h.threshold : Int) < temp)) (decide (volt < 195)) := by
        simp [after, f, FaultSet.cleared, not_le.mpr cool, not_lt.mpr strong]
      obtain ⟨n, set, tick⟩ := alone (.inr (.inr ⟨fault, same ▸ left⟩))
      obtain rfl := tick (.inr (by simp [FaultSet.raised, not_le.mpr cool, not_lt.mpr strong]))
      exact exec.trans (congrArg _ set)
    · have same : s.engine.faults.cleared (decide ((h.threshold : Int) < temp)) (decide (volt < 195)) = .none := by
        rw [← gone]
        simp [after, f, FaultSet.cleared, not_le.mpr cool, not_lt.mpr strong]
      have clears := judgeReading_clears judges (by rw [engine_onEngine]; exact same ▸ some.symm)
        (by simp [FaultSet.raised, not_le.mpr cool, not_lt.mpr strong])
      rw [clears] at exec
      have ready := ready_leaveFaults (s := s.onEngine fun e => e.withReading h temp volt) fault some
      rw [← same] at ready
      exact ⟨_, exec, ready.faults, ne_fault_of_enters ready.mode, ready.temperature,
        ready.voltage, ready.hot, ready.pending, ready.idle, ready.frame⟩
    · refine ⟨fun fault kept => ?_, fun fault some gone raised => ?_⟩
      · obtain ⟨n, same, -⟩ := alone (.inr (.inr ⟨fault, kept⟩))
        exact ⟨n, exec.trans (congrArg _ same)⟩
      · obtain same | ⟨mode, faults, temperature, voltage, hot, pending, frame⟩ :=
          judgeReading_renews judges fault some gone (by simpa using raised)
        · exact .inl (exec.trans (congrArg _ same))
        · exact .inr ⟨_, exec, mode, faults, temperature, voltage, hot, pending, frame⟩
  · obtain ⟨n, same, tick⟩ := judgeReading_alone (judges_unprofiled none temp volt) (.inl unset)
    have either : s.engine.faults.cleared true (decide (volt < 195)) = s.engine.faults ∨
        s.engine.faults.raised false (decide (volt < 190)) = s.engine.faults := by
      obtain ⟨headOpen, overheat, supplyLow, mediaOut, noGap⟩ := s.engine.faults
      cases supplyLow <;> simp [FaultSet.cleared, FaultSet.raised]
    obtain rfl := tick either
    rw [exec_sensorReading runs, storeReading_unprofiled none, same]
    simp [FaultSet.judged, FaultSet.cleared, FaultSet.raised, State.withFaults, State.onEngine]

end Sys2Proof.Machine
end

section
/-! PROOFS. A forward step: HP, the mark and the pace of the line after it; what its reading makes of the sensor; the way to a start and a
search (O49). -/

namespace Sys2Proof.Machine

/-! ### The reading of a step (R138 to R140) -/

theorem edgeFound_frame (e : Engine) (pos : Int) : e.edgeFound pos = { e with
    edges := (e.edgeFound pos).edges, registered := (e.edgeFound pos).registered } := by
  unfold Engine.edgeFound
  split <;> rfl

theorem gapFound_frame (e : Engine) (pos : Int) : e.gapFound pos = { e with edges := (e.gapFound pos).edges } := by
  unfold Engine.gapFound
  split
  · split <;> rfl
  · rfl

/-- A reading moves the sensor, the edge list and registration alone. -/
theorem read_frame (e : Engine) (sensor nOn nOff : Nat) (gap : Bool) :
    e.read sensor nOn nOff gap = { e with
      mark := max e.mark (e.hp + sensor), gap := (e.read sensor nOn nOff gap).gap, gapRun := (e.read sensor nOn nOff gap).gapRun,
      labelRun := (e.read sensor nOn nOff gap).labelRun, gapLength := (e.read sensor nOn nOff gap).gapLength,
      edges := (e.read sensor nOn nOff gap).edges, registered := (e.read sensor nOn nOff gap).registered } := by
  unfold Engine.read
  split
  next ahead =>
    rw [max_eq_right ahead.le]
    unfold Engine.readOnGap Engine.readOnLabel
    dsimp only
    split
    · split
      · rfl
      · split
        · rw [edgeFound_frame]
        · rfl
    · split
      · split
        · rw [gapFound_frame]
        · rfl
      · rfl
  next behind => rw [max_eq_left (not_lt.mp behind)]

/-- A position already read is not read again (R138). -/
theorem read_behind {e : Engine} {sensor : Nat} (behind : e.hp + sensor ≤ e.mark) (nOn nOff : Nat) (gap : Bool) :
    e.read sensor nOn nOff gap = e := if_neg (not_lt.mpr behind)

/-- The sensor's part of the engine: the decision, the run counts, the gap length, the edge list and registration (R138 to R140). -/
def Engine.senses (e : Engine) (decision : Bool) (gapRun labelRun gapLength : Nat) (edges : List Edge) (registered : Bool) : Prop :=
  e.gap = decision ∧ e.gapRun = gapRun ∧ e.labelRun = labelRun ∧ e.gapLength = gapLength ∧ e.edges = edges ∧ e.registered = registered

section
variable {e : Engine} {sensor nOn nOff : Nat} {gap : Bool}

theorem read_label (ahead : e.mark < e.hp + sensor) (label : e.gap = false) :
    (e.read sensor nOn nOff false).senses false 0 e.labelRun e.gapLength e.edges e.registered := by
  simp [Engine.read, ahead, label, Engine.readOnLabel, Engine.senses]

theorem read_towardsGap (ahead : e.mark < e.hp + sensor) (label : e.gap = false) (few : e.gapRun + 1 < nOn) :
    (e.read sensor nOn nOff true).senses false (e.gapRun + 1) e.labelRun e.gapLength e.edges e.registered := by
  simp [Engine.read, ahead, label, Engine.readOnLabel, Engine.senses, not_le.mpr few]

/-- The turn to gap measures the last record where it has no length (R139). -/
theorem read_turnToGap (ahead : e.mark < e.hp + sensor) (label : e.gap = false) (enough : nOn ≤ e.gapRun + 1) :
    (∀ (front : List Edge) (x : Edge), e.edges = front ++ [x] → x.length = none →
      (e.read sensor nOn nOff true).senses true 0 0 1
        (front ++ [{ x with length := some (e.hp + sensor - ((nOn : Int) - 1) - x.pos) }]) e.registered) ∧
    ((∀ x, e.edges.getLast? = some x → x.length ≠ none) →
      (e.read sensor nOn nOff true).senses true 0 0 1 e.edges e.registered) := by
  refine ⟨fun front x last unmeasured => ?_, fun measured => ?_⟩
  · simp [Engine.read, ahead, label, Engine.readOnLabel, enough, Engine.gapFound, last, unmeasured, Engine.senses]
  · cases last : e.edges.getLast? with
    | none => simp [Engine.read, ahead, label, Engine.readOnLabel, enough, Engine.gapFound, last, Engine.senses]
    | some x =>
      obtain ⟨n, length⟩ := Option.ne_none_iff_exists'.mp (measured x last)
      simp [Engine.read, ahead, label, Engine.readOnLabel, enough, Engine.gapFound, last, length, Engine.senses]

theorem read_gap (ahead : e.mark < e.hp + sensor) (inGap : e.gap = true) :
    (e.read sensor nOn nOff true).senses true e.gapRun 0 (e.gapLength + 1) e.edges e.registered := by
  simp [Engine.read, ahead, inGap, Engine.readOnGap, Engine.senses]

theorem read_towardsLabel (ahead : e.mark < e.hp + sensor) (inGap : e.gap = true) (few : e.labelRun + 1 < nOff) :
    (e.read sensor nOn nOff false).senses true e.gapRun (e.labelRun + 1) (e.gapLength + 1) e.edges e.registered := by
  simp [Engine.read, ahead, inGap, Engine.readOnGap, Engine.senses, not_le.mpr few]

/-- The turn to label finds an edge, which a full list drops with registration (R139, R140). -/
theorem read_turnToLabel (ahead : e.mark < e.hp + sensor) (inGap : e.gap = true) (enough : nOff ≤ e.labelRun + 1) :
    (e.edges.length < 32 → (e.read sensor nOn nOff false).senses false 0 0 0
      (e.edges ++ [{ pos := e.hp + sensor - ((nOff : Int) - 1), length := none }]) true) ∧
    (32 ≤ e.edges.length → (e.read sensor nOn nOff false).senses false 0 0 0
      (e.edges.filter fun x => e.heads.any fun b => b.edge == some x.pos) false) := by
  refine ⟨fun room => ?_, fun full => ?_⟩
  · simp [Engine.read, ahead, inGap, Engine.readOnGap, enough, Engine.edgeFound, room, Engine.senses]
  · simp [Engine.read, ahead, inGap, Engine.readOnGap, enough, Engine.edgeFound, not_lt.mpr full, Engine.loseRegistration, Engine.tied,
      Engine.senses]

/-- A reading lengthens the gap by one line at most, or begins one (R138). -/
theorem read_gapLength (e : Engine) (sensor nOn nOff : Nat) (gap : Bool) :
    (e.read sensor nOn nOff gap).gapLength ≤ e.gapLength + 1 := by
  unfold Engine.read Engine.readOnGap Engine.readOnLabel
  split
  · dsimp only
    split
    · split
      · exact le_rfl
      · split
        · rw [edgeFound_frame]
          exact Nat.zero_le _
        · exact le_rfl
    · split
      · split
        · rw [gapFound_frame]
          exact Nat.le_add_left 1 _
        · exact Nat.le_succ _
      · exact Nat.le_succ _
  · exact Nat.le_succ _
end

/-! ### The step in parts (R133, R136) -/

/-- The motor's part of a step: HP, the reading, the history, and the label line that ended (R126, R133, R137, R142). -/
def State.lineEnded (s : State) (l : Line) (gap : Bool) : State := (s.motorSteps l gap).endLine l

/-- The ends and the next work of a step (R141 to R148, R154). -/
def State.worked (s : State) (read : Bool) : State := s.endsAtStep.afterStep read

theorem works_worked (s : State) (read : Bool) : s.Works (s.worked read) := (works_endsAtStep s).trans (works_afterStep _ read)

section
variable {s : State} {l : Line}

/-- A step of the moving engine that raises no fault. -/
theorem forwardStep_clear (mode : s.engine.mode = .registering ∨ s.engine.mode = .burning) (line : s.engine.line = some l) {gap : Bool}
    (clear : ((s.lineEnded l gap).mediaFaults s.readsNext).withNoGap (s.lineEnded l gap).engine.task ((s.lineEnded l gap).engine.feedCount + 1) =
      (s.lineEnded l gap).engine.faults) : s.forwardStep gap = (s.lineEnded l gap).worked s.readsNext := by
  obtain mode | mode := mode <;>
  · simp only [State.forwardStep, mode, line]
    exact if_pos clear

/-- A step of the moving engine that raises a fault takes it first, or its next work (R136, R154; log 4). -/
theorem forwardStep_faulty (mode : s.engine.mode = .registering ∨ s.engine.mode = .burning) (line : s.engine.line = some l) {gap : Bool}
    (faulty : ((s.lineEnded l gap).mediaFaults s.readsNext).withNoGap (s.lineEnded l gap).engine.task ((s.lineEnded l gap).engine.feedCount + 1) ≠
      (s.lineEnded l gap).engine.faults) :
    let media := (s.lineEnded l gap).mediaFaults s.readsNext
    let ticked := { s.lineEnded l gap with freeTick := (s.lineEnded l gap).freeTick + 1 }
    s.forwardStep gap = ticked.joinFaults (media.withNoGap (s.lineEnded l gap).engine.task ((s.lineEnded l gap).engine.feedCount + 1)) ∨
    s.forwardStep gap = (ticked.worked s.readsNext).joinFaults
      (media.withNoGap (ticked.worked s.readsNext).engine.task (ticked.worked s.readsNext).engine.feedCount) := by
  intro media ticked
  have step : s.forwardStep gap = if Config.faultFirst (s.lineEnded l gap).freeTick
      then ticked.joinFaults (media.withNoGap (s.lineEnded l gap).engine.task ((s.lineEnded l gap).engine.feedCount + 1))
      else (ticked.worked s.readsNext).joinFaults
        (media.withNoGap (ticked.worked s.readsNext).engine.task (ticked.worked s.readsNext).engine.feedCount) := by
    obtain mode | mode := mode <;>
    · simp only [State.forwardStep, mode, line]
      exact if_neg faulty
  rw [step]
  split
  · exact .inl rfl
  · exact .inr rfl

/-! ### Any step: HP, the mark and the pace (R131 to R133, R137, R138) -/

/-- What a step leaves before a fault is taken: HP is one up, the mark follows the sensor, and a line started keeps the ramp. -/
structure State.Stepped (s : State) (l : Line) (t : State) : Prop where
  frame : t = { s with
    engine := t.engine, ring := t.ring, hand := t.hand, labels := t.labels, redo := t.redo, queue := t.queue, ports := t.ports,
    freeTick := t.freeTick }
  hp    : t.engine.hp = s.engine.hp + 1
  mark  : t.engine.mark = max s.engine.mark (s.engine.hp + 1 + s.profile.elim 0 HeadProfile.sensor)
  pace  : t.engine.prevPeriod = some l.period ∨ t.engine.prevPeriod = none
  line  : ∀ m, t.engine.line = some m → t.Paced m

theorem State.Stepped.works {t u : State} (h : s.Stepped l t) (k : t.Works u) : s.Stepped l u where
  frame := by rw [k.frame, h.frame]
  hp := k.hp.trans h.hp
  mark := k.mark.trans h.mark
  pace := by
    obtain same | stopped := k.pace
    · rw [same]
      exact h.pace
    · exact .inr stopped
  line m line := by
    obtain ⟨before, same⟩ | paced := k.line m line
    · obtain ⟨r, set, period⟩ := h.line m before
      exact ⟨r, by rw [k.frame, ← set], by rw [k.hot, same, period]⟩
    · exact paced

/-- A reading does not see the line in progress nor the previous period. -/
theorem read_pace (e : Engine) (period : Option Nat) (m : Option Line) (sensor nOn nOff : Nat) (gap : Bool) :
    ({ e with prevPeriod := period, line := m } : Engine).read sensor nOn nOff gap =
      { e.read sensor nOn nOff gap with prevPeriod := period, line := m } := by
  unfold Engine.read Engine.readOnGap Engine.readOnLabel Engine.edgeFound Engine.gapFound
  dsimp only
  split
  · split
    · split
      · rfl
      · split
        · split <;> rfl
        · rfl
    · split
      · split
        · split
          · split <;> rfl
          · rfl
        · rfl
      · rfl
  · rfl

/-- The engine with HP one up and the step's reading taken (R137, R138). -/
def State.stepRead (s : State) (gap : Bool) : Engine :=
  ({ s.engine with hp := s.engine.hp + 1 } : Engine).read s.sensorOffset (s.settings.elim 1 RunSettings.nOn)
    (s.settings.elim 1 RunSettings.nOff) gap

theorem stepRead_frame (s : State) (gap : Bool) : s.stepRead gap = { s.engine with
    hp := s.engine.hp + 1, mark := max s.engine.mark (s.engine.hp + 1 + s.sensorOffset), gap := (s.stepRead gap).gap,
    gapRun := (s.stepRead gap).gapRun, labelRun := (s.stepRead gap).labelRun, gapLength := (s.stepRead gap).gapLength,
    edges := (s.stepRead gap).edges, registered := (s.stepRead gap).registered } := read_frame ..

/-- The motor's part of a step (R126, R133, R137). -/
theorem motorSteps_eq (s : State) (l : Line) (gap : Bool) : s.motorSteps l gap = { s with
    engine := ({ s.stepRead gap with prevPeriod := some l.period, line := none } : Engine).shiftHistory
      (s.profile.elim 0 HeadProfile.dots) l } :=
  congrArg (fun e : Engine => { s with engine := e.shiftHistory (s.profile.elim 0 HeadProfile.dots) l })
    (read_pace { s.engine with hp := s.engine.hp + 1 } ..)

theorem stepped_lineEnded (s : State) (l : Line) (gap : Bool) : s.Stepped l (s.lineEnded l gap) := by
  refine State.Stepped.works (t := s.motorSteps l gap) ?_ (works_endLine _ l)
  rw [motorSteps_eq, stepRead_frame]
  exact ⟨rfl, rfl, rfl, .inl rfl, nofun⟩

/-- A set of faults joined to itself. -/
theorem joinFaults_self (s : State) : s.joinFaults s.engine.faults = s := joinFaults_alone fun none => .inl none

/-- Whatever a step does, it ends in a set of faults joined, the same as before where it raises none. -/
theorem forwardStep_joins (mode : s.engine.mode = .registering ∨ s.engine.mode = .burning) (line : s.engine.line = some l) (gap : Bool) :
    ∃ u f, s.Stepped l u ∧ s.forwardStep gap = u.joinFaults f := by
  have ended := stepped_lineEnded s l gap
  by_cases clear : ((s.lineEnded l gap).mediaFaults s.readsNext).withNoGap (s.lineEnded l gap).engine.task
      ((s.lineEnded l gap).engine.feedCount + 1) = (s.lineEnded l gap).engine.faults
  · exact ⟨_, _, ended.works (works_worked _ _), (forwardStep_clear mode line clear).trans (joinFaults_self _).symm⟩
  · have ticked : s.Stepped l { s.lineEnded l gap with freeTick := (s.lineEnded l gap).freeTick + 1 } :=
      ⟨by rw [ended.frame], ended.hp, ended.mark, ended.pace, ended.line⟩
    obtain first | later := forwardStep_faulty mode line clear
    · exact ⟨_, _, ticked, first⟩
    · exact ⟨_, _, ticked.works (works_worked _ _), later⟩

/-- A fault taken leaves HP, and in FAULT no line is in progress (R151). -/
theorem State.Stepped.joined {u : State} (h : s.Stepped l u) (f : FaultSet) :
    (u.joinFaults f).engine.hp = s.engine.hp + 1 ∧
    u.joinFaults f = { s with
      engine := (u.joinFaults f).engine, ring := (u.joinFaults f).ring, hand := (u.joinFaults f).hand, labels := (u.joinFaults f).labels,
      redo := (u.joinFaults f).redo, queue := (u.joinFaults f).queue, ports := (u.joinFaults f).ports,
      freeTick := (u.joinFaults f).freeTick } ∧
    ((u.joinFaults f).engine.mode ≠ .fault →
      (u.joinFaults f).engine.mark = max s.engine.mark (s.engine.hp + 1 + s.profile.elim 0 HeadProfile.sensor)) ∧
    ∀ m, (u.joinFaults f).engine.line = some m →
      (u.joinFaults f).Paced m ∧ ((u.joinFaults f).engine.prevPeriod = some l.period ∨ (u.joinFaults f).engine.prevPeriod = none) := by
  unfold State.joinFaults
  dsimp only
  split
  · have fault := faultOf_enterFault (u.withFaults f)
    refine ⟨fault.hp.trans h.hp, ?_, fun other => absurd fault.mode other, fun m line => by cases fault.line.symm.trans line⟩
    rw [enterFault_frame, State.onEngine, h.frame]
  · exact ⟨h.hp, by rw [State.onEngine, h.frame], fun _ => h.mark, fun m line => ⟨h.line m line, h.pace⟩⟩

/-- A line's period is not below its required period, the minimum of its speed, and the ramp's floor (R131 to R133). -/
theorem paced_bounds {t : State} {m : Line} {r : RunSettings} (paced : t.Paced m) (set : t.settings = some r)
    (pace : t.engine.prevPeriod = some l.period ∨ t.engine.prevPeriod = none) :
    minimumPeriod r.speed t.engine.hot ≤ m.period ∧ m.required ≤ m.period ∧
      ((t.engine.prevPeriod = some l.period ∧ 7 * l.period ≤ 8 * m.period) ∨ (t.engine.prevPeriod = none ∧ 8000 ≤ m.period)) := by
  obtain ⟨r', set', period⟩ := paced
  obtain rfl := Option.some.inj (set.symm.trans set')
  rw [linePeriod] at period
  refine ⟨by omega, by omega, pace.imp (fun goes => ⟨goes, ?_⟩) fun still => ⟨still, ?_⟩⟩
  · rw [goes, rampFloor, ceilDiv] at period
    omega
  · rw [still, rampFloor] at period
    omega

end

end Sys2Proof.Machine
end

section
/-! PROOFS. A forward step on the way to a start, and in a search for an edge, with MEDIA-OUT and NO-GAP (O49). -/

namespace Sys2Proof.Machine

/-! ### What a step with nothing to end leaves -/

/-- Labels that are only being carried out, none at its present position, do not end (R147, R154). -/
theorem endsAtStep_of_carried {s : State}
    (carried : ∀ b ∈ s.engine.heads, b.out = true ∧ (s.peels = true ∨ s.engine.hp < s.presentPosition b)) : s.endsAtStep = s := by
  have same : s.engine.heads.map (fun h => if h.length ≤ h.done && !h.spoiled && !s.isCancelled h.job then { h with out := true } else h) =
      s.engine.heads := by
    refine (List.map_congr_left fun b mem => ?_).trans (List.map_id _)
    have out := (carried b mem).1
    split
    · rw [← out]
      rfl
    · rfl
  have none : s.engine.heads.find? (fun h => h.spoiled && !h.out && h.length ≤ h.done) = none :=
    List.find?_eq_none.mpr fun b mem => by simp [(carried b mem).1]
  have ends (b : HeadLabel) (mem : b ∈ s.engine.heads) : s.endIfDue b = s := by
    obtain ⟨out, goes⟩ := carried b mem
    have waits : ¬ (!s.peels && decide (s.presentPosition b ≤ s.engine.hp)) = true := by
      obtain peels | ahead := goes
      · simp [peels]
      · simp [not_le.mpr ahead]
    simp only [State.endIfDue, out, Bool.not_true, Bool.false_eq_true, if_false, if_neg waits]
  have fold : ∀ l : List HeadLabel, l ⊆ s.engine.heads → l.foldl State.endIfDue s = s := by
    intro l
    induction l with
    | nil => exact fun _ => rfl
    | cons b l ih =>
      intro within
      rw [List.foldl_cons, ends b (within List.mem_cons_self)]
      exact ih fun _ mem => within (List.mem_cons_of_mem _ mem)
  simp only [State.endsAtStep, State.onEngine, same, none]
  exact fold _ fun _ => id

/-- A blank line, under run settings (R134). -/
theorem startBlank_line {s : State} {r : RunSettings} (set : s.settings = some r) :
    ∃ m : Line, s.startBlank = s.onEngine fun e => { e with line := some m } := by
  rw [State.startBlank, set]
  exact ⟨_, rfl⟩

/-- The engine after the motor's part of a step, but for the line history (R126, R133, R137, R138). -/
theorem motorSteps_engine (s : State) (l : Line) (gap : Bool) : (s.motorSteps l gap).engine = { s.engine with
    hp := s.engine.hp + 1, mark := max s.engine.mark (s.engine.hp + 1 + s.sensorOffset), gap := (s.stepRead gap).gap,
    gapRun := (s.stepRead gap).gapRun, labelRun := (s.stepRead gap).labelRun, gapLength := (s.stepRead gap).gapLength,
    edges := (s.stepRead gap).edges, registered := (s.stepRead gap).registered, prevPeriod := some l.period, line := none,
    history1 := (s.motorSteps l gap).engine.history1, history2 := (s.motorSteps l gap).engine.history2 } := by
  rw [motorSteps_eq, stepRead_frame]
  rfl

theorem motorSteps_settings (s : State) (l : Line) (gap : Bool) : (s.motorSteps l gap).settings = s.settings := rfl

theorem motorSteps_mode (s : State) (l : Line) (gap : Bool) : (s.motorSteps l gap).engine.mode = s.engine.mode := by
  rw [motorSteps_engine]

theorem motorSteps_faults (s : State) (l : Line) (gap : Bool) : (s.motorSteps l gap).engine.faults = s.engine.faults := by
  rw [motorSteps_engine]

theorem motorSteps_task (s : State) (l : Line) (gap : Bool) : (s.motorSteps l gap).engine.task = s.engine.task := by
  rw [motorSteps_engine]

theorem motorSteps_heads (s : State) (l : Line) (gap : Bool) : (s.motorSteps l gap).engine.heads = s.engine.heads := by
  rw [motorSteps_engine]

theorem motorSteps_feedCount (s : State) (l : Line) (gap : Bool) :
    (s.motorSteps l gap).engine.feedCount = s.engine.feedCount := by
  rw [motorSteps_engine]

theorem motorSteps_hp (s : State) (l : Line) (gap : Bool) : (s.motorSteps l gap).engine.hp = s.engine.hp + 1 := by
  rw [motorSteps_engine]

theorem motorSteps_gapLength (s : State) (l : Line) (gap : Bool) :
    (s.motorSteps l gap).engine.gapLength = (s.stepRead gap).gapLength := by
  rw [motorSteps_engine]

/-- Only a label's lines have anything to end with a line (R142). -/
theorem lineEnded_of_task {s : State} (task : s.engine.task ≠ .lines) (l : Line) (gap : Bool) :
    s.lineEnded l gap = s.motorSteps l gap := by
  unfold State.lineEnded State.endLine
  split
  next lines _ => exact absurd ((motorSteps_task s l gap).symm.trans lines) task
  · rfl

/-- A fault that a step without a label's line raises, taken before the next work or after it (R136; log 4). -/
theorem forwardStep_raises {s u : State} {l : Line} {gap : Bool} {f : FaultSet}
    (mode : s.engine.mode = .registering ∨ s.engine.mode = .burning) (line : s.engine.line = some l) (task : s.engine.task ≠ .lines)
    (raised : f ≠ s.engine.faults)
    (before : ((s.motorSteps l gap).mediaFaults s.readsNext).withNoGap s.engine.task (s.engine.feedCount + 1) = f)
    (worked : ({ s.motorSteps l gap with freeTick := s.freeTick + 1 } : State).worked s.readsNext = u)
    (after : ((s.motorSteps l gap).mediaFaults s.readsNext).withNoGap u.engine.task u.engine.feedCount = f) :
    s.forwardStep gap = ({ s.motorSteps l gap with freeTick := s.freeTick + 1 } : State).joinFaults f ∨
      s.forwardStep gap = u.joinFaults f := by
  have ended := lineEnded_of_task task l gap
  have faulty := forwardStep_faulty mode line (gap := gap)
    (by rw [ended, motorSteps_task, motorSteps_feedCount, before, motorSteps_faults]; exact raised)
  rw [ended, motorSteps_task, motorSteps_feedCount] at faulty
  subst worked
  exact faulty.imp (·.trans (congrArg _ before)) (·.trans (congrArg _ after))

/-! ### On the way to a start (R138 to R141) -/

/-- The engine on its way to a start, with labels at the head only being carried out (R141, R147). -/
structure State.Approaches (s : State) (l : Line) (r : RunSettings) (h : HeadProfile) (start edge : Int) : Prop where
  set     : s.settings = some r
  profile : s.profile = some h
  mode    : s.engine.mode = .burning
  line    : s.engine.line = some l
  task    : s.engine.task = .approach start edge
  ahead   : s.engine.hp + 1 < start
  carried : ∀ b ∈ s.engine.heads, b.out = true ∧ (r.present = .peel ∨ s.engine.hp + 1 < s.presentPosition b)
  faults  : s.engine.faults = .none

section
variable {s : State} {l : Line} {r : RunSettings} {h : HeadProfile} {start edge : Int}

/-- The next work on the way to a start is a blank line (R134, R141). -/
theorem worked_approach {t : State} (set : t.settings = some r) (task : t.engine.task = .approach start edge)
    (ahead : t.engine.hp < start)
    (carried : ∀ b ∈ t.engine.heads, b.out = true ∧ (t.peels = true ∨ t.engine.hp < t.presentPosition b)) (read : Bool) :
    ∃ m : Line, t.worked read = t.onEngine fun e => { e with line := some m } := by
  obtain ⟨m, blank⟩ := startBlank_line set
  refine ⟨m, ?_⟩
  rw [State.worked, endsAtStep_of_carried carried, State.afterStep, task]
  rw [← blank]
  exact startMove_ahead (.inr ⟨start, edge, task, ahead⟩)

/-- The next work of a step on the way to a start, at any tick (R134, R141). -/
theorem State.Approaches.worked (way : s.Approaches l r h start edge) (gap read : Bool) (tick : Nat) :
    ∃ m : Line, ({ s.motorSteps l gap with freeTick := tick } : State).worked read =
      ({ s.motorSteps l gap with freeTick := tick } : State).onEngine fun e => { e with line := some m } := by
  refine worked_approach (t := { s.motorSteps l gap with freeTick := tick }) way.set ((motorSteps_task s l gap).trans way.task) ((motorSteps_hp s l gap).trans_lt way.ahead)
    (fun b mem => ?_) read
  obtain ⟨out, goes⟩ := way.carried b (by rwa [← motorSteps_heads s l gap])
  refine ⟨out, goes.imp (fun peel => ?_) ((motorSteps_hp s l gap).trans_lt ·)⟩
  show s.peels = true
  rw [State.peels, way.set]
  simp [peel]

/-- A step on the way to a start searches for nothing, so MEDIA-OUT alone can be raised (R141, R150). -/
theorem State.Approaches.media (way : s.Approaches l r h start edge) (gap read : Bool) (count : Nat) :
    ((s.motorSteps l gap).mediaFaults read).withNoGap (.approach start edge) count =
      if read && decide (r.gapLimit < (s.stepRead gap).gapLength) then { FaultSet.none with mediaOut := true } else .none := by
  rw [FaultSet.withNoGap, State.mediaFaults, motorSteps_settings, way.set, motorSteps_faults, way.faults, motorSteps_gapLength]
  rfl

/-- A step on the way to a start that raises no fault goes on to it (R138 to R141). -/
theorem State.Approaches.forwardStep_clear (way : s.Approaches l r h start edge) {gap : Bool}
    (clear : (s.readsNext && decide (r.gapLimit < (s.stepRead gap).gapLength)) = false) :
    ∃ m : Line, s.forwardStep gap = (s.motorSteps l gap).onEngine fun e => { e with line := some m } := by
  obtain ⟨m, worked⟩ := way.worked gap s.readsNext s.freeTick
  have ended := lineEnded_of_task (s := s) (by rw [way.task]; exact nofun) l gap
  refine ⟨m, (Machine.forwardStep_clear (.inr way.mode) way.line ?_).trans ?_⟩
  · rw [ended, motorSteps_task, way.task, way.media, clear, motorSteps_faults, way.faults]
    rfl
  · rw [ended]
    exact worked

/-- What a step that raises no fault leaves on the way to a start (R137 to R141). -/
theorem State.Approaches.goesOn (way : s.Approaches l r h start edge) {gap : Bool}
    (clear : (s.readsNext && decide (r.gapLimit < (s.stepRead gap).gapLength)) = false) :
    ∃ t : State, s.forwardStep gap = t ∧ t = { s with engine := t.engine } ∧ t.engine.mode = .burning ∧
      t.engine.task = .approach start edge ∧ t.engine.heads = s.engine.heads ∧ t.engine.faults = .none ∧
      t.engine.mark = max s.engine.mark (s.engine.hp + 1 + h.sensor) ∧
      ∀ decision gapRun labelRun gapLength edges registered,
        (s.stepRead gap).senses decision gapRun labelRun gapLength edges registered →
        t.engine.senses decision gapRun labelRun gapLength edges registered := by
  obtain ⟨m, step⟩ := way.forwardStep_clear clear
  have sensor : s.sensorOffset = h.sensor := by rw [State.sensorOffset, way.profile]; rfl
  refine ⟨_, step, rfl, (motorSteps_mode s l gap).trans way.mode, (motorSteps_task s l gap).trans way.task, motorSteps_heads s l gap,
    (motorSteps_faults s l gap).trans way.faults, ?_, fun _ _ _ _ _ _ sensed => ?_⟩
  · rw [← sensor]
    exact congrArg Engine.mark (motorSteps_engine s l gap)
  · rw [State.onEngine, motorSteps_engine]
    exact sensed

theorem State.Approaches.stepRead (way : s.Approaches l r h start edge) (gap : Bool) :
    s.stepRead gap = ({ s.engine with hp := s.engine.hp + 1 } : Engine).read h.sensor r.nOn r.nOff gap := by
  rw [State.stepRead, State.sensorOffset, way.set, way.profile]
  rfl

theorem State.Approaches.readsNext_iff (way : s.Approaches l r h start edge) :
    s.readsNext = true ↔ s.engine.mark < s.engine.hp + 1 + h.sensor := by
  rw [State.readsNext, State.sensorOffset, way.profile]
  exact decide_eq_true_iff

/-! ### A fault taken (R151) -/

/-- A set of faults joined to none puts the moving engine in FAULT with an ENGINE-FAULT at every port (R151). -/
theorem joinFaults_taken {u : State} {f : FaultSet} (empty : u.engine.faults = .none) (some : f ≠ .none)
    (mode : u.engine.mode.entersFault = true) :
    ({ u.engine with faults := f } : Engine).FaultOf (u.joinFaults f).engine ∧
      ∀ p, Event.engineFault.isIn ((u.joinFaults f).port p).pending = true := by
  rw [joinFaults_enters empty some mode]
  exact ⟨faultOf_enterFault (u.withFaults f), fun p => enterFault_pending (u.withFaults f) p _ (.inr rfl)⟩

/-- A reading that takes the gap length beyond the gap limit puts the engine in FAULT with MEDIA-OUT, whichever of the fault and the
next work is taken first (R141, R150; log 4). -/
theorem State.Approaches.mediaOut (way : s.Approaches l r h start edge) {gap : Bool} (reads : s.readsNext = true)
    (long : r.gapLimit < (s.stepRead gap).gapLength) :
    ∃ u : State, s.forwardStep gap = u.joinFaults { FaultSet.none with mediaOut := true } ∧ u.engine.mode = .burning ∧
      u.engine.faults = .none ∧ u.engine.hp = s.engine.hp + 1 := by
  obtain ⟨m, worked⟩ := way.worked gap s.readsNext (s.freeTick + 1)
  have media (count : Nat) : ((s.motorSteps l gap).mediaFaults s.readsNext).withNoGap (.approach start edge) count =
      { FaultSet.none with mediaOut := true } := by
    rw [way.media, reads, if_pos (by simpa using long)]
  have task := (motorSteps_task s l gap).trans way.task
  have moves := (motorSteps_mode s l gap).trans way.mode
  have faults := (motorSteps_faults s l gap).trans way.faults
  obtain first | later := forwardStep_raises (.inr way.mode) way.line (by rw [way.task]; exact nofun) (by rw [way.faults]; decide)
    (by rw [way.task, media]) worked ((congrArg (FaultSet.withNoGap _ · _) task).trans (media _))
  · exact ⟨_, first, moves, faults, motorSteps_hp s l gap⟩
  · exact ⟨_, later, moves, faults, motorSteps_hp s l gap⟩

end

end Sys2Proof.Machine
end

section
/-! PROOFS. A search for an edge, and the motor's step in every state (O49). -/

namespace Sys2Proof.Machine

/-! ### The choice of a start keeps the rest of the engine (R141) -/

theorem chooseStart_frame (e : Engine) (offset : Int) : e.chooseStart offset = { e with
    mode := (e.chooseStart offset).mode, task := (e.chooseStart offset).task, feedCount := (e.chooseStart offset).feedCount,
    edges := (e.prune offset).edges } := by
  unfold Engine.chooseStart
  dsimp only
  split <;> rfl

/-- A search that goes on keeps its count (R141). -/
theorem chooseStart_counts {e : Engine} (lost : e.registered = false) (searches : e.mode = .registering) (offset : Int) :
    (e.chooseStart offset).feedCount = e.feedCount := by
  have none : (e.prune offset).usableEdge offset = none := if_neg (by simp [lost])
  simp only [Engine.chooseStart, none]
  exact if_pos searches

/-! ### The search (R141) -/

/-- The engine searching for an edge, for the label waiting at the take position (R141). -/
structure State.Seeks (s : State) (l : Line) (r : RunSettings) (b : BandRecord) : Prop where
  set    : s.settings = some r
  mode   : s.engine.mode = .registering
  line   : s.engine.line = some l
  task   : s.engine.task = .seek
  heads  : s.engine.heads = []
  faults : s.engine.faults = .none
  take   : s.takeFull? = some b
  first  : b.band = 0
  live   : b.void = false

section
variable {s : State} {l : Line} {r : RunSettings} {b : BandRecord}

theorem State.Seeks.stepRead (way : s.Seeks l r b) (gap : Bool) : s.stepRead gap =
    ({ s.engine with hp := s.engine.hp + 1 } : Engine).read (s.profile.elim 0 HeadProfile.sensor) r.nOn r.nOff gap := by
  rw [State.stepRead, way.set]
  rfl

/-- The engine that a search's step leaves before it chooses: a line more is counted (R141). -/
def State.searched (s : State) (l : Line) (gap : Bool) : Engine :=
  { (s.motorSteps l gap).engine with feedCount := s.engine.feedCount + 1 }

/-- The next work of a search: a start is chosen at a step whose reading is taken, and a line begins (R134, R141). -/
theorem State.Seeks.worked (way : s.Seeks l r b) (gap read : Bool) (tick : Nat) :
    ({ s.motorSteps l gap with freeTick := tick } : State).worked read =
      let t : State := { s with engine := s.searched l gap, freeTick := tick }
      if read then (t.onEngine (·.chooseStart r.topOffset)).startMove else t.startBlank := by
  have task := (motorSteps_task s l gap).trans way.task
  have heads : ({ s.motorSteps l gap with freeTick := tick } : State).engine.heads = [] := (motorSteps_heads s l gap).trans way.heads
  have counted : ({ s.motorSteps l gap with freeTick := tick } : State).countSearch =
      { s with engine := s.searched l gap, freeTick := tick } := by
    refine (if_pos ?_).trans ?_
    · rw [task]
      rfl
    · rw [State.searched, ← motorSteps_feedCount s l gap]
      rfl
  have look : ({ s with engine := s.searched l gap, freeTick := tick } : State).lookForWork =
      ({ s with engine := s.searched l gap, freeTick := tick } : State).onEngine (·.chooseStart r.topOffset) := by
    have take : ({ s with engine := s.searched l gap, freeTick := tick } : State).takeFull? = some b := way.take
    rw [State.lookForWork, skipVoid_of_band take way.live, readyBand?_of_first take way.first way.live, State.topOffset, way.set]
    rfl
  rw [State.worked, endsAtStep_of_carried (by rw [heads]; exact nofun), State.afterStep]
  simp only [task, counted, State.goOn, look]

/-- A search that is not registered after the step goes on (R141). -/
theorem State.Seeks.worked_lost (way : s.Seeks l r b) {gap : Bool} (lost : (s.stepRead gap).registered = false) (read : Bool) (tick : Nat) :
    ∃ e : Engine, ({ s.motorSteps l gap with freeTick := tick } : State).worked read = { s with engine := e, freeTick := tick } ∧
      e.mode = .registering ∧ e.task = .seek ∧ e.feedCount = s.engine.feedCount + 1 ∧ e.hp = s.engine.hp + 1 ∧ e.faults = .none := by
  have seeks : (s.searched l gap).mode = .registering := (motorSteps_mode s l gap).trans way.mode
  have none : (s.searched l gap).registered = false := by rw [State.searched, motorSteps_engine]; exact lost
  have hp : (s.searched l gap).hp = s.engine.hp + 1 := motorSteps_hp s l gap
  have faults : (s.searched l gap).faults = .none := (motorSteps_faults s l gap).trans way.faults
  rw [way.worked]
  dsimp only
  split
  · obtain ⟨mode, task⟩ := chooseStart_lost none r.topOffset
    rw [startMove_ahead (.inl task), startBlank_frame]
    exact ⟨_, rfl, mode, task, chooseStart_counts none seeks r.topOffset, (chooseStart_kept _ _).1.trans hp,
      (congrArg Engine.faults (chooseStart_frame (s.searched l gap) r.topOffset)).trans faults⟩
  · rw [startBlank_frame]
    exact ⟨_, rfl, seeks, (motorSteps_task s l gap).trans way.task, rfl, hp, faults⟩

/-- A search's step within the gap limit can raise NO-GAP alone, at 4,800 lines (R141, R150). -/
theorem State.Seeks.faultsRaised (way : s.Seeks l r b) {gap : Bool} (short : (s.stepRead gap).gapLength ≤ r.gapLimit) (read : Bool)
    (count : Nat) : ((s.motorSteps l gap).mediaFaults read).withNoGap .seek count =
      if 4800 ≤ count then { FaultSet.none with noGap := true } else .none := by
  have media : (s.motorSteps l gap).mediaFaults read = .none := by
    rw [State.mediaFaults, motorSteps_settings, way.set, motorSteps_faults, way.faults, motorSteps_gapLength]
    exact if_neg (by simp [short])
  rw [FaultSet.withNoGap, media]
  simp only [Task.searches, Bool.true_and, decide_eq_true_eq]
  rfl

/-- A search of fewer than 4,800 lines raises no fault within the gap limit. -/
theorem State.Seeks.forwardStep_clear (way : s.Seeks l r b) {gap : Bool} (short : (s.stepRead gap).gapLength ≤ r.gapLimit)
    (few : s.engine.feedCount < 4799) :
    s.forwardStep gap = ({ s.motorSteps l gap with freeTick := s.freeTick } : State).worked s.readsNext := by
  have ended := lineEnded_of_task (s := s) (by rw [way.task]; exact nofun) l gap
  refine (Machine.forwardStep_clear (.inl way.mode) way.line ?_).trans (by rw [ended]; rfl)
  rw [ended, motorSteps_task, way.task, way.faultsRaised short, motorSteps_feedCount, if_neg (by omega), motorSteps_faults, way.faults]

/-- 4,800 lines of a search put the engine in FAULT with NO-GAP, whichever of the fault and the next work is taken first (R141, R150;
log 4). -/
theorem State.Seeks.noGap (way : s.Seeks l r b) {gap : Bool} (lost : (s.stepRead gap).registered = false)
    (short : (s.stepRead gap).gapLength ≤ r.gapLimit) (many : 4799 ≤ s.engine.feedCount) :
    ∃ u : State, s.forwardStep gap = u.joinFaults { FaultSet.none with noGap := true } ∧ u.engine.mode = .registering ∧
      u.engine.faults = .none ∧ u.engine.hp = s.engine.hp + 1 := by
  have raised : ((s.motorSteps l gap).mediaFaults s.readsNext).withNoGap .seek (s.engine.feedCount + 1) =
      { FaultSet.none with noGap := true } := by
    rw [way.faultsRaised short, if_pos (by omega)]
  obtain ⟨e, worked, mode, seek, count, hp, none⟩ := way.worked_lost lost s.readsNext (s.freeTick + 1)
  obtain first | later := forwardStep_raises (f := { FaultSet.none with noGap := true }) (.inl way.mode) way.line
    (by rw [way.task]; exact nofun) (by rw [way.faults]; decide)
    (by rw [way.task, raised]) worked (by rw [seek, count, raised])
  · exact ⟨_, first, (motorSteps_mode s l gap).trans way.mode, (motorSteps_faults s l gap).trans way.faults, motorSteps_hp s l gap⟩
  · exact ⟨_, later, mode, none, hp⟩

/-- The step that finds an edge ends the search: the edge's start is chosen, and a blank line on the way to it begins (R139 to R141). -/
theorem State.Seeks.finds (way : s.Seeks l r b) {gap : Bool} {edge : Int} (found : (s.stepRead gap).edges = [{ pos := edge, length := none }])
    (held : (s.stepRead gap).registered = true) (ahead : s.engine.hp + 1 < edge + r.topOffset) (tick : Nat) :
    ∃ e : Engine, ({ s.motorSteps l gap with freeTick := tick } : State).worked true = { s with engine := e, freeTick := tick } ∧
      e.mode = .burning ∧ e.task = .approach (edge + r.topOffset) edge ∧ e.edges = [{ pos := edge, length := none }] ∧
      e.registered = true ∧ e.hp = s.engine.hp + 1 := by
  have edges : (s.searched l gap).edges = [{ pos := edge, length := none }] := by rw [State.searched, motorSteps_engine]; exact found
  have registered : (s.searched l gap).registered = true := by rw [State.searched, motorSteps_engine]; exact held
  have hp : (s.searched l gap).hp = s.engine.hp + 1 := motorSteps_hp s l gap
  obtain ⟨mode, task⟩ := chooseStart_held (e := s.searched l gap) (offset := r.topOffset) (x := { pos := edge, length := none }) registered
    (by simpa [edges, hp] using ahead.le)
  have frame := chooseStart_frame (s.searched l gap) r.topOffset
  have hp' : ((s.searched l gap).chooseStart r.topOffset).hp = s.engine.hp + 1 := (chooseStart_kept _ _).1.trans hp
  rw [way.worked]
  dsimp only
  rw [if_pos rfl, startMove_ahead (.inr ⟨_, _, task, hp'.trans_lt ahead⟩), startBlank_frame]
  refine ⟨_, rfl, mode, task, ?_, ?_, hp'⟩
  · exact (congrArg Engine.edges frame).trans (by simpa [Engine.prune, edges, hp] using .inl ahead.le)
  · exact (congrArg Engine.registered frame).trans registered

end

/-! ### O49 -/

/-- A forward step is the motor's step while the reset input leaves the part running. -/
theorem exec_forwardStep {s : State} (runs : s.held = false) (gap : Bool) : exec (.forwardStep gap) s = .next (s.forwardStep gap) :=
  running_of_not_held runs (·.forwardStep gap)

/-- Whatever the step, HP is one up, the mark follows the sensor, and a line in progress keeps its speed and the ramp (R126, R131 to R133,
R137). -/
theorem exec_forwardStep_paced {s : State} {l : Line} {r : RunSettings} (runs : s.held = false) (set : s.settings = some r)
    (line : s.engine.line = some l) (mode : s.engine.mode = .registering ∨ s.engine.mode = .burning) (gap : Bool) :
    ∃ t : State, exec (.forwardStep gap) s = .next t ∧ t.engine.hp = s.engine.hp + 1 ∧
      t = { s with
        engine := t.engine, ring := t.ring, hand := t.hand, labels := t.labels, redo := t.redo, queue := t.queue, ports := t.ports,
        freeTick := t.freeTick } ∧
      (t.engine.mode ≠ .fault → t.engine.mark = max s.engine.mark (s.engine.hp + 1 + s.profile.elim 0 HeadProfile.sensor)) ∧
      ∀ m, t.engine.line = some m →
        minimumPeriod r.speed t.engine.hot ≤ m.period ∧ m.required ≤ m.period ∧
        ((t.engine.prevPeriod = some l.period ∧ 7 * l.period ≤ 8 * m.period) ∨ (t.engine.prevPeriod = none ∧ 8000 ≤ m.period)) := by
  obtain ⟨u, f, stepped, step⟩ := forwardStep_joins mode line gap
  obtain ⟨hp, frame, mark, lines⟩ := stepped.joined f
  refine ⟨_, (exec_forwardStep runs gap).trans (congrArg _ step), hp, frame, mark, fun m started => ?_⟩
  obtain ⟨paced, pace⟩ := lines m started
  exact paced_bounds paced (by rw [frame]; exact set) pace

/-- A gap reading within a gap, and a label reading short of a turn, lengthen the gap (R138). -/
theorem State.Approaches.lengthens {s : State} {l : Line} {r : RunSettings} {h : HeadProfile} {start edge : Int} {gap : Bool}
    (way : s.Approaches l r h start edge) (ahead : s.engine.mark < s.engine.hp + 1 + h.sensor) (inGap : s.engine.gap = true)
    (reading : gap = true ∨ s.engine.labelRun + 1 < r.nOff) : (s.stepRead gap).gapLength = s.engine.gapLength + 1 := by
  rw [way.stepRead]
  cases gap with
  | true =>
    obtain ⟨_, _, _, gapLength, _, _⟩ :=
      read_gap (e := { s.engine with hp := s.engine.hp + 1 }) (nOn := r.nOn) (nOff := r.nOff) ahead inGap
    exact gapLength
  | false =>
    have few : s.engine.labelRun + 1 < r.nOff := reading.resolve_left nofun
    obtain ⟨_, _, _, gapLength, _, _⟩ :=
      read_towardsLabel (e := { s.engine with hp := s.engine.hp + 1 }) (nOn := r.nOn) ahead inGap few
    exact gapLength

/-- A reading beyond the gap limit takes the fault MEDIA-OUT, and so FAULT (R141, R150, R151). -/
theorem exec_mediaOut {s : State} {l : Line} {r : RunSettings} {h : HeadProfile} {start edge : Int} {gap : Bool}
    (way : s.Approaches l r h start edge) (runs : s.held = false) (reads : s.readsNext = true)
    (long : r.gapLimit < (s.stepRead gap).gapLength) :
    ∃ t : State, exec (.forwardStep gap) s = .next t ∧ t.engine.mode = .fault ∧
      t.engine.faults = { FaultSet.none with mediaOut := true } ∧ t.engine.line = none ∧ t.engine.hp = s.engine.hp + 1 ∧
      t.engine.edges = [] ∧ t.engine.registered = false ∧ t.engine.gap = false ∧ t.engine.gapLength = 0 ∧
      ∀ p, Event.engineFault.isIn (t.port p).pending = true := by
  obtain ⟨u, step, mode, empty, hp⟩ := way.mediaOut reads long
  obtain ⟨fault, events⟩ := joinFaults_taken (f := { FaultSet.none with mediaOut := true }) empty (by decide) (by rw [mode]; rfl)
  exact ⟨_, (exec_forwardStep runs gap).trans (congrArg _ step), fault.mode, fault.faults, fault.line, fault.hp.trans hp, fault.edges,
    fault.registered, fault.gap, fault.gapLength, events⟩

/-- A search's 4,800th line without an edge takes the fault NO-GAP, and so FAULT (R141, R150, R151). -/
theorem exec_noGap {s : State} {l : Line} {r : RunSettings} {b : BandRecord} {gap : Bool} (way : s.Seeks l r b) (runs : s.held = false)
    (lost : (s.stepRead gap).registered = false) (short : (s.stepRead gap).gapLength ≤ r.gapLimit) (many : 4799 ≤ s.engine.feedCount) :
    ∃ t : State, exec (.forwardStep gap) s = .next t ∧ t.engine.hp = s.engine.hp + 1 ∧ t.engine.mode = .fault ∧
      t.engine.faults = { FaultSet.none with noGap := true } ∧ t.engine.line = none ∧
      ∀ p, Event.engineFault.isIn (t.port p).pending = true := by
  obtain ⟨u, step, mode, empty, hp⟩ := way.noGap lost short many
  obtain ⟨fault, events⟩ := joinFaults_taken (f := { FaultSet.none with noGap := true }) empty (by decide) (by rw [mode]; rfl)
  exact ⟨_, (exec_forwardStep runs gap).trans (congrArg _ step), fault.hp.trans hp, fault.mode, fault.faults, fault.line, events⟩

/-- Settles O49: the step in any state by what a step's work and a fault leave of the line and the pace; the step on the way to a start by
the cases of its reading; the step of a search by what its reading finds. -/
theorem forwardStepMovesAndSenses : Obligations.ForwardStepMovesAndSenses := by
  refine ⟨?_, ?_, ?_⟩
  · exact fun s gap l r runs set line mode => exec_forwardStep_paced runs set line mode gap
  · intro s gap l r h start edge runs set profile mode line _ task ahead carried faults e pos
    have way : s.Approaches l r h start edge := ⟨set, profile, mode, line, task, ahead, carried, faults⟩
    have unread (behind : pos ≤ e.mark) : s.readsNext = false :=
      Bool.eq_false_iff.mpr fun reads => absurd (way.readsNext_iff.mp reads) (not_lt.mpr behind)
    have still (behind : pos ≤ e.mark) :
        (s.stepRead gap).senses e.gap e.gapRun e.labelRun e.gapLength e.edges e.registered := by
      rw [way.stepRead, read_behind behind]
      exact ⟨rfl, rfl, rfl, rfl, rfl, rfl⟩
    refine ⟨fun behind _ => ?_, fun within => ?_, fun ahead inGap reading limit => ?_⟩
    · obtain ⟨t, step, frame, mode, _, _, faults, _, senses⟩ := way.goesOn (gap := gap) (by rw [unread behind, Bool.false_and])
      obtain ⟨_, _, _, gapLength, _, _⟩ := senses _ _ _ _ _ _ (still behind)
      exact ⟨t, (exec_forwardStep runs gap).trans (congrArg _ step), mode, faults, gapLength, frame⟩
    · have clear : (s.readsNext && decide (r.gapLimit < (s.stepRead gap).gapLength)) = false := by
        obtain short | ⟨behind, _⟩ := within
        · have longest : (s.stepRead gap).gapLength ≤ e.gapLength + 1 := read_gapLength ..
          have within : ¬ r.gapLimit < (s.stepRead gap).gapLength := by omega
          rw [decide_eq_false within, Bool.and_false]
        · rw [unread behind, Bool.false_and]
      obtain ⟨t, step, frame, mode, task, heads, _, mark, senses⟩ := way.goesOn clear
      have senses := way.stepRead gap ▸ senses
      refine ⟨t, (exec_forwardStep runs gap).trans (congrArg _ step), frame, mode, task, heads, mark, fun behind => ?_,
        fun ahead label reading => ?_, fun ahead label reading few => ?_, fun ahead label reading enough => ?_,
        fun ahead inGap reading => ?_, fun ahead inGap reading few => ?_, fun ahead inGap reading enough => ?_⟩
      · exact senses _ _ _ _ _ _ (way.stepRead gap ▸ still behind)
      · exact senses _ _ _ _ _ _ (by subst reading; exact read_label ahead label)
      · exact senses _ _ _ _ _ _ (by subst reading; exact read_towardsGap ahead label few)
      · obtain ⟨unmeasured, measured⟩ := read_turnToGap (e := { e with hp := e.hp + 1 }) ahead label enough
        subst reading
        exact ⟨fun front x last open' => senses _ _ _ _ _ _ (unmeasured front x last open'),
          fun all => senses _ _ _ _ _ _ (measured all)⟩
      · exact senses _ _ _ _ _ _ (by subst reading; exact read_gap ahead inGap)
      · exact senses _ _ _ _ _ _ (by subst reading; exact read_towardsLabel ahead inGap few)
      · obtain ⟨room, full⟩ := read_turnToLabel (e := { e with hp := e.hp + 1 }) ahead inGap enough
        subst reading
        exact ⟨fun short => senses _ _ _ _ _ _ (room short), fun long => senses _ _ _ _ _ _ (full long)⟩
    · have longer := way.lengthens ahead inGap reading
      exact exec_mediaOut way runs (way.readsNext_iff.mpr ahead) (by rw [longer]; exact limit ▸ Nat.lt_succ_self _)
  · intro s gap l r b runs set mode task line _ heads faults take first live pos read
    have way : s.Seeks l r b := ⟨set, mode, line, task, heads, faults, take, first, live⟩
    have reading : s.stepRead gap = read := way.stepRead gap
    refine ⟨fun lost short => ?_, fun edge at_ ahead inGap label enough none few before => ?_⟩
    · rw [← reading] at lost short
      obtain few | many := lt_or_ge s.engine.feedCount 4799
      · obtain ⟨e, worked, mode, task, count, hp, _⟩ := way.worked_lost lost s.readsNext s.freeTick
        exact ⟨_, (exec_forwardStep runs gap).trans (congrArg _ ((way.forwardStep_clear short few).trans worked)), hp,
          fun _ => ⟨mode, task, count, rfl⟩, fun many => absurd few (not_lt.mpr many)⟩
      · obtain ⟨t, step, hp, mode, faults, line, events⟩ := exec_noGap way runs lost short many
        exact ⟨t, step, hp, fun few => absurd few (not_lt.mpr many), fun _ => ⟨mode, faults, line, events⟩⟩
    · subst label
      obtain ⟨found, _⟩ := read_turnToLabel (e := { s.engine with hp := s.engine.hp + 1 }) (nOn := r.nOn) ahead inGap enough
      obtain ⟨_, _, _, gapLength, edges, held⟩ := found (by rw [none]; decide)
      rw [none, List.nil_append, ← at_] at edges
      have reads : s.readsNext = true := decide_eq_true ahead
      rw [← way.stepRead] at gapLength edges held
      obtain ⟨e, worked, mode, task, edges, held, hp⟩ := way.finds edges held before s.freeTick
      have step := way.forwardStep_clear (by rw [gapLength]; exact Nat.zero_le _) few
      rw [reads, worked] at step
      exact ⟨_, (exec_forwardStep runs false).trans (congrArg _ step), mode, task, edges, held, hp, rfl⟩

end Sys2Proof.Machine
end

section
/-! PROOFS. The lid opened and closed: the entry into FAULT whole (O43), and the faults its closing clears (O44). -/

namespace Sys2Proof.Machine

/-! ### The lid opened (R150, R151) -/

theorem entersFault_iff {m : EngineMode} : m.entersFault = true ↔ m ≠ .unset ∧ m ≠ .dry ∧ m ≠ .fault := by
  cases m <;> simp [EngineMode.entersFault]

/-- What an entry into FAULT leaves beside what `Engine.FaultOf` says: the motor at a standstill, the sensor begun afresh, no label at the
head, nothing in the ring or the composer (R114, R138, R151). -/
theorem enterFault_stops (s : State) :
    s.enterFault.engine.prevPeriod = none ∧ s.enterFault.engine.heads = [] ∧
      s.enterFault.engine.mark = s.engine.hp + s.sensorOffset ∧ s.enterFault.ring = Ring.empty ∧ s.enterFault.hand = none := by
  have works := works_headsFaulted (s.onEngine Engine.motorStop)
  have emptied : s.enterFault.ring = Ring.empty ∧ s.enterFault.hand = none := by
    rw [enterFault_eq, postAll_ring, postAll_hand, flush_frame]
    exact ⟨rfl, rfl⟩
  rw [enterFault_engine]
  refine ⟨works.pace.elim id id, headsFaulted_heads _, ?_, emptied⟩
  exact congrArg (· + (s.sensorOffset : Int)) works.hp

theorem exec_lidSwitchOpen_joins {s : State} (runs : s.held = false) :
    exec .lidSwitchOpen s = .next (s.joinFaults (s.engine.faults.put .headOpen true)) :=
  running_of_not_held runs fun s => s.joinFaults (s.engine.faults.put .headOpen true)

/-- Settles O43: where faults stop the engine the opening is an entry into FAULT; elsewhere, and with a fault standing, the set alone
changes. -/
theorem lidOpenStopsTheEngine : Obligations.LidOpenStopsTheEngine := by
  refine ⟨fun s runs none unset dry fault => ?_, fun s runs stays => ?_⟩
  · have enters := exec_lidSwitchOpen runs none (entersFault_iff.mpr ⟨unset, dry, fault⟩)
    set faulty := s.onEngine fun e => { e with faults := s.engine.faults.put .headOpen true } with joined
    have after := faultOf_enterFault faulty
    obtain ⟨pace, heads, mark, ring, hand⟩ := enterFault_stops faulty
    have set : faulty.engine.faults = { FaultSet.none with headOpen := true } := by rw [joined, engine_onEngine, none]; rfl
    refine ⟨_, enters, after.mode, after.faults.trans set, after.line, by rw [Engine.heats, after.line]; rfl, pace, ring, hand, heads,
      after.registered, after.edges, after.gap, after.hp, mark, fun p => enterFault_pending faulty p _ (.inr rfl), ?_⟩
    rw [enterFault_frame]
    rfl
  · rw [exec_lidSwitchOpen_joins runs, joinFaults_alone fun none => .inr (Bool.eq_false_iff.mpr fun enters => ?_)]
    · rfl
    · obtain ⟨unset, dry, fault⟩ := entersFault_iff.mp enters
      simp [none, unset, dry, fault] at stays

/-! ### The lid closed (R150, R152) -/

theorem exec_lidSwitchClosed {s : State} (runs : s.held = false) :
    exec .lidSwitchClosed s = .next (s.leaveFaults s.engine.faults.lidClosed) :=
  running_of_not_held runs fun s => s.leaveFaults s.engine.faults.lidClosed

/-- The lid's closing empties the set where neither OVERHEAT nor SUPPLY-LOW stands, and only there (R150). -/
theorem lidClosed_eq_none {f : FaultSet} : f.lidClosed = .none ↔ f.overheat = false ∧ f.supplyLow = false := by
  obtain ⟨headOpen, overheat, supplyLow, mediaOut, noGap⟩ := f
  simp [FaultSet.lidClosed, FaultSet.none]

/-- Settles O44: outside FAULT, and while a fault remains, the set alone changes; with the last fault the engine leaves FAULT. -/
theorem lidClosedClearsItsFaults : Obligations.LidClosedClearsItsFaults := by
  refine ⟨fun s runs other => ?_, fun s runs fault => ⟨fun remains => ?_, fun some cool strong => ?_⟩⟩
  · rw [exec_lidSwitchClosed runs, leaveFaults_alone fun fault => absurd fault other]
    rfl
  · rw [exec_lidSwitchClosed runs, leaveFaults_alone fun _ empty => ?_]
    · rfl
    · obtain ⟨cool, strong⟩ := lidClosed_eq_none.mp empty
      simp [cool, strong] at remains
  · have closed := exec_lidSwitchClosed runs
    rw [lidClosed_eq_none.mpr ⟨cool, strong⟩] at closed
    have ready := ready_leaveFaults fault some
    exact ⟨_, closed, ready.faults, ne_fault_of_enters ready.mode, ready.pending, ready.idle, ready.frame⟩

end Sys2Proof.Machine
end

section
/-! PROOFS. A forward step that raises no fault, whatever the engine feeds for; and the steps of a FEED, its two searches and its end (R153). -/

namespace Sys2Proof.Machine

/-! ### A step within the gap limit -/

/-- The motor moves, and the reading of its next step leaves the gap length within the gap limit (R138, R150). -/
structure State.Moves (s : State) (l : Line) (r : RunSettings) (gap : Bool) : Prop where
  set   : s.settings = some r
  mode  : s.engine.mode = .registering ∨ s.engine.mode = .burning
  line  : s.engine.line = some l
  short : (s.stepRead gap).gapLength ≤ r.gapLimit

theorem stepRead_eq {s : State} {r : RunSettings} {h : HeadProfile} (set : s.settings = some r) (profile : s.profile = some h) (gap : Bool) :
    s.stepRead gap = ({ s.engine with hp := s.engine.hp + 1 } : Engine).read h.sensor r.nOn r.nOff gap := by
  rw [State.stepRead, State.sensorOffset, set, profile]
  rfl

theorem readsNext_eq {s : State} {h : HeadProfile} (profile : s.profile = some h) :
    s.readsNext = decide (s.engine.mark < s.engine.hp + 1 + h.sensor) := by
  rw [State.readsNext, State.sensorOffset, profile]
  rfl

/-- A step that takes no reading leaves the edge list (R138). -/
theorem stepRead_unread {s : State} (unread : s.readsNext = false) (gap : Bool) :
    s.stepRead gap = { s.engine with hp := s.engine.hp + 1 } :=
  read_behind (e := { s.engine with hp := s.engine.hp + 1 }) (by simpa [State.readsNext] using unread) ..

theorem motorSteps_edges (s : State) (l : Line) (gap : Bool) : (s.motorSteps l gap).engine.edges = (s.stepRead gap).edges := by
  rw [motorSteps_engine]

theorem motorSteps_registered (s : State) (l : Line) (gap : Bool) :
    (s.motorSteps l gap).engine.registered = (s.stepRead gap).registered := by
  rw [motorSteps_engine]

/-- What a label line that ends may touch (R98, R142, R182). -/
theorem endLine_frame (s : State) (l : Line) : s.endLine l = { s with
    engine := { s.engine with heads := (s.endLine l).engine.heads }, ring := (s.endLine l).ring, ports := (s.endLine l).ports } := by
  unfold State.endLine
  split
  · dsimp only
    split
    · split <;> split <;> rfl
    · split <;> rfl
  · rfl

/-- The line fed unburned at an engine's pace (R133, R134). -/
def Engine.blankLine (e : Engine) (r : RunSettings) : Line where
  period := max (minimumPeriod r.speed e.hot) (rampFloor e.prevPeriod)
  required := 0
  burn := none
  phases := []
  strobe := .off
  enabled := []

theorem startBlank_eq {s : State} {r : RunSettings} (set : s.settings = some r) :
    s.startBlank = s.onEngine fun e => { e with line := some (e.blankLine r) } := by
  rw [startBlank_frame, startBlank_engine set]
  rfl

section
variable {s : State} {l : Line} {r : RunSettings} {gap : Bool}

/-- Within the gap limit no MEDIA-OUT is raised (R150). -/
theorem State.Moves.mediaFaults (way : s.Moves l r gap) (read : Bool) : (s.lineEnded l gap).mediaFaults read = s.engine.faults := by
  rw [State.lineEnded, endLine_frame, State.mediaFaults]
  refine (if_neg ?_).trans (motorSteps_faults s l gap)
  simp [motorSteps_settings, way.set, motorSteps_gapLength, way.short]

/-- A step within the gap limit that searches for nothing, or has not fed 4,800 lines, does its work and raises no fault (R141, R150). -/
theorem State.Moves.forwardStep (way : s.Moves l r gap) (few : s.engine.task.searches = true → s.engine.feedCount < 4799) :
    s.forwardStep gap = (s.lineEnded l gap).worked s.readsNext := by
  refine forwardStep_clear way.mode way.line ?_
  have task : (s.lineEnded l gap).engine.task = s.engine.task := by
    rw [State.lineEnded, endLine_frame]
    exact motorSteps_task s l gap
  have count : (s.lineEnded l gap).engine.feedCount = s.engine.feedCount := by
    rw [State.lineEnded, endLine_frame]
    exact motorSteps_feedCount s l gap
  have faults : (s.lineEnded l gap).engine.faults = s.engine.faults := by
    rw [State.lineEnded, endLine_frame]
    exact motorSteps_faults s l gap
  rw [way.mediaFaults, task, count, faults]
  refine if_neg fun raises => ?_
  simp only [Bool.and_eq_true, decide_eq_true_eq] at raises
  exact absurd (few raises.1) (by omega)

end

/-! ### The searches of a FEED (R139, R153) -/

/-- What is looked for ahead of HP is found as well once the records passed over have left the list. -/
theorem find?_prune {e : Engine} {offset : Int} {p : Edge → Bool} (ahead : ∀ x, p x = true → e.hp ≤ x.pos + offset) :
    (e.prune offset).edges.find? p = e.edges.find? p := by
  refine (List.find?_filter ..).trans (congrArg (List.find? · e.edges) (funext fun x => ?_))
  by_cases found : p x = true
  · simp [found, ahead x found]
  · simp [found]

theorem usableEdge_prune (e : Engine) (offset : Int) : (e.prune offset).usableEdge offset = e.usableEdge offset :=
  congrArg (fun found => if e.registered then found else none) (find?_prune (e := e) fun _ => of_decide_eq_true)

/-- With no label at the head every record passed over leaves the list (R139). -/
theorem prune_edges {e : Engine} (heads : e.heads = []) (offset : Int) :
    (e.prune offset).edges = e.edges.filter fun x => decide (e.hp ≤ x.pos + offset) := by
  simp [Engine.prune, Engine.tied, heads]

/-- The record of the start after the one at an edge, if there is one yet (R153). -/
def Engine.nextEdge? (e : Engine) (offset first : Int) : Option Edge :=
  e.edges.find? fun y => decide (first < y.pos) && decide (e.hp ≤ y.pos + offset)

theorem nextEdge?_prune (e : Engine) (offset first : Int) : (e.prune offset).nextEdge? offset first = e.nextEdge? offset first :=
  find?_prune fun x found => by
    simp only [Bool.and_eq_true, decide_eq_true_eq] at found
    exact found.2

theorem feedNext_eq (e : Engine) (offset first : Int) : e.feedNext offset first = match e.nextEdge? offset first with
    | some y => { e with task := .feedTo (y.pos + offset), feedCount := 0 }
    | none => { e with task := .feedSecond first } := rfl

section
variable {e : Engine} {offset first : Int}

/-- The first search while it finds no edge. -/
theorem feedSearch_lost (task : e.task = .feedFirst) (lost : e.usableEdge offset = none) : e.feedSearch offset = e.prune offset := by
  simp only [Engine.feedSearch, task, usableEdge_prune, lost]

/-- The first search once it has its edge goes on to the second, the count begun again. -/
theorem feedSearch_found {x : Edge} (task : e.task = .feedFirst) (found : e.usableEdge offset = some x) :
    e.feedSearch offset = { e.prune offset with
      feedCount := 0, task := match e.nextEdge? offset x.pos with
        | some y => .feedTo (y.pos + offset)
        | none => .feedSecond x.pos } := by
  simp only [Engine.feedSearch, task, usableEdge_prune, found, feedNext_eq]
  have next : ({ e.prune offset with feedCount := 0 } : Engine).nextEdge? offset x.pos = e.nextEdge? offset x.pos :=
    nextEdge?_prune e offset x.pos
  rw [next]
  cases e.nextEdge? offset x.pos <;> rfl

/-- The second search while it finds no edge. -/
theorem feedSearch_second_lost (task : e.task = .feedSecond first) (lost : e.nextEdge? offset first = none) :
    e.feedSearch offset = e.prune offset := by
  simp only [Engine.feedSearch, task, feedNext_eq, nextEdge?_prune, lost]
  simp only [Engine.prune, ← task]

/-- The second search ends with its edge. -/
theorem feedSearch_second_found {y : Edge} (task : e.task = .feedSecond first) (found : e.nextEdge? offset first = some y) :
    e.feedSearch offset = { e.prune offset with task := .feedTo (y.pos + offset), feedCount := 0 } := by
  simp only [Engine.feedSearch, task, feedNext_eq, nextEdge?_prune, found]

/-- A FEED that has its target searches no more. -/
theorem feedSearch_to {target : Int} (task : e.task = .feedTo target) : e.feedSearch offset = e := by
  simp only [Engine.feedSearch, task]

end

/-! ### A step of a FEED -/

/-- Whether a task is one of a FEED's (R153). -/
def Task.ofFeed : Task → Bool
  | .feedFirst | .feedSecond _ | .feedTo _ => true
  | _ => false

/-- The engine after a FEED's step has counted its line and, at a reading, searched (R141, R153). -/
def Engine.fed (e : Engine) (offset : Int) (read : Bool) : Engine :=
  let counted := { e with feedCount := if e.task.searches then e.feedCount + 1 else e.feedCount }
  if read then counted.feedSearch offset else counted

/-- A FEED stands at its target once HP has reached it (R153). -/
def Engine.arrived (e : Engine) : Prop := ∃ target, e.task = .feedTo target ∧ target ≤ e.hp

theorem countSearch_eq (s : State) :
    s.countSearch = s.onEngine fun e => { e with feedCount := if e.task.searches then e.feedCount + 1 else e.feedCount } := by
  unfold State.countSearch State.onEngine
  split
  next searches => simp only [if_pos searches]
  next still => simp only [if_neg still]

/-- A step of a FEED short of its target is followed by a blank line (R134, R153). -/
theorem afterStep_feeds {s : State} (task : s.engine.task.ofFeed = true) (read : Bool)
    (short : ¬ (s.engine.fed s.topOffset read).arrived) :
    s.afterStep read = (s.onEngine (·.fed s.topOffset read)).startBlank := by
  have fed : (if read then s.countSearch.onEngine (·.feedSearch s.topOffset) else s.countSearch) =
      s.onEngine (·.fed s.topOffset read) := by
    rw [countSearch_eq]
    cases read <;> rfl
  have goes : ∀ t : State, t.engine = s.engine.fed s.topOffset read → (match t.engine.task with
      | .feedTo target =>
        if target ≤ t.engine.hp then (t.onEngine fun e => { e.motorStop with mode := .stopped, task := .idle }).engineLook
        else t.startBlank
      | _ => t.startBlank) = t.startBlank := by
    intro t same
    split
    next target aim => exact if_neg fun reached => short ⟨target, by rw [← same, aim], by rwa [← same]⟩
    · rfl
  unfold State.afterStep
  split
  case h_6 | h_7 | h_8 =>
    rw [fed]
    exact goes _ rfl
  all_goals
    next other => rw [other] at task; cases task

/-- At its target a FEED is over: the engine is STOPPED and looks for work (R153). -/
theorem afterStep_fed {s : State} {target : Int} (task : s.engine.task = .feedTo target) (reached : target ≤ s.engine.hp) (read : Bool) :
    s.afterStep read = (s.onEngine fun e => { e.motorStop with mode := .stopped, task := .idle }).goOn := by
  have same : (if read then s.countSearch.onEngine (·.feedSearch s.topOffset) else s.countSearch) = s := by
    have idle : s.countSearch = s := if_neg (by rw [task]; exact Bool.false_ne_true)
    rw [idle, State.onEngine, feedSearch_to task, ite_self]
  simp only [State.afterStep, task, same, if_pos reached]
  rfl

/-- A FEED under way, with no label at the head and no fault standing (R153). -/
structure State.FeedsOn (s : State) (l : Line) (r : RunSettings) (gap : Bool) : Prop extends s.Moves l r gap where
  registers : s.engine.mode = .registering
  heads     : s.engine.heads = []
  faults    : s.engine.faults = .none
  task      : s.engine.task.ofFeed = true

section
variable {s : State} {l : Line} {r : RunSettings} {gap : Bool}

theorem ofFeed_ne_lines {task : Task} (feed : task.ofFeed = true) : task ≠ .lines := by
  rintro rfl
  cases feed

theorem State.FeedsOn.lineEnded (way : s.FeedsOn l r gap) : s.lineEnded l gap = s.motorSteps l gap :=
  lineEnded_of_task (ofFeed_ne_lines way.task) l gap

/-- A FEED's step has no label to end. -/
theorem State.FeedsOn.worked (way : s.FeedsOn l r gap) (read : Bool) (tick : Nat) :
    ({ s.motorSteps l gap with freeTick := tick } : State).worked read =
      ({ s.motorSteps l gap with freeTick := tick } : State).afterStep read := by
  have none : ({ s.motorSteps l gap with freeTick := tick } : State).engine.heads = [] := (motorSteps_heads s l gap).trans way.heads
  rw [State.worked, endsAtStep_of_carried (by rw [none]; exact nofun)]

/-- The engine that a step of a FEED leaves, its next line begun. -/
def State.fedOn (s : State) (l : Line) (r : RunSettings) (gap : Bool) : Engine :=
  (s.motorSteps l gap).engine.fed r.topOffset s.readsNext

/-- The work of a FEED's step short of its target (R134, R153). -/
theorem State.FeedsOn.worked_short (way : s.FeedsOn l r gap) (short : ¬ (s.fedOn l r gap).arrived) (tick : Nat) :
    ({ s.motorSteps l gap with freeTick := tick } : State).worked s.readsNext =
      { s with engine := { s.fedOn l r gap with line := some ((s.fedOn l r gap).blankLine r) }, freeTick := tick } := by
  have offset : ({ s.motorSteps l gap with freeTick := tick } : State).topOffset = r.topOffset := by
    show s.settings.elim 0 RunSettings.topOffset = _
    rw [way.set]
    rfl
  have task : ({ s.motorSteps l gap with freeTick := tick } : State).engine.task.ofFeed = true :=
    (congrArg Task.ofFeed (motorSteps_task s l gap)).trans way.task
  rw [way.worked, afterStep_feeds task s.readsNext (by rwa [offset]), offset, startBlank_eq (by exact way.set)]
  rfl

/-- A step of a FEED short of its target, where it does not end a search of 4,800 lines (R153). -/
theorem State.FeedsOn.forwardStep_short (way : s.FeedsOn l r gap) (short : ¬ (s.fedOn l r gap).arrived)
    (few : s.engine.task.searches = true → s.engine.feedCount < 4799) :
    s.forwardStep gap = { s with engine := { s.fedOn l r gap with line := some ((s.fedOn l r gap).blankLine r) } } := by
  rw [way.forwardStep few, way.lineEnded]
  exact way.worked_short short s.freeTick

/-- 4,800 lines of a search of a FEED put the engine in FAULT with NO-GAP, whichever of the fault and the next line is taken first
(R141, R150, R153; log 4). -/
theorem State.FeedsOn.noGap (way : s.FeedsOn l r gap) (searches : s.engine.task.searches = true)
    (same : (s.fedOn l r gap).task = s.engine.task) (many : 4799 ≤ s.engine.feedCount)
    (count : (s.fedOn l r gap).feedCount = s.engine.feedCount + 1) (stays : (s.fedOn l r gap).mode = .registering)
    (none : (s.fedOn l r gap).faults = .none) :
    (s.forwardStep gap).engine.mode = .fault ∧ (s.forwardStep gap).engine.faults = { FaultSet.none with noGap := true } := by
  have short : ¬ (s.fedOn l r gap).arrived := by
    rintro ⟨target, aim, -⟩
    rw [← same, aim] at searches
    cases searches
  have raised : ((s.motorSteps l gap).mediaFaults s.readsNext).withNoGap s.engine.task (s.engine.feedCount + 1) =
      { FaultSet.none with noGap := true } := by
    rw [← way.lineEnded, way.mediaFaults, way.faults, FaultSet.withNoGap, searches]
    exact if_pos (by simpa using many)
  have taken (u : State) (mode : u.engine.mode = .registering) (empty : u.engine.faults = .none) :
      (u.joinFaults { FaultSet.none with noGap := true }).engine.mode = .fault ∧
        (u.joinFaults { FaultSet.none with noGap := true }).engine.faults = { FaultSet.none with noGap := true } := by
    obtain ⟨fault, -⟩ := joinFaults_taken (f := { FaultSet.none with noGap := true }) empty (by decide) (by rw [mode]; rfl)
    exact ⟨fault.mode, fault.faults⟩
  have worked := way.worked_short short (s.freeTick + 1)
  obtain first | later := forwardStep_raises (f := { FaultSet.none with noGap := true }) way.mode way.line (ofFeed_ne_lines way.task)
    (by rw [way.faults]; decide) raised worked (by rw [← raised]; exact congrArg₂ _ same count)
  · rw [first]
    exact taken _ ((motorSteps_mode s l gap).trans way.registers) ((motorSteps_faults s l gap).trans way.faults)
  · rw [later]
    exact taken _ stays none

end

end Sys2Proof.Machine
end

section
/-! PROOFS. FEED taken, its steps case by case, and DRY-RUN-ON taken (O34). -/

namespace Sys2Proof.Machine

/-! ### FEED taken (R153) -/

theorem exec_feed {s : State} {p : Port} (can : s.canTake p Kind.feed.byte []) :
    exec (.feed p []) s = .next ((s.taken p).takeFeed p) :=
  record_of_parsed (parse := parseEmpty) (act := fun _ s => s.takeFeed p) (r := ()) can rfl

theorem feedSearch_frame (e : Engine) (offset : Int) : e.feedSearch offset = { e with
    task := (e.feedSearch offset).task, edges := (e.feedSearch offset).edges, feedCount := (e.feedSearch offset).feedCount } := by
  unfold Engine.feedSearch Engine.feedNext
  split
  · dsimp only
    split
    · split <;> rfl
    · rfl
  · split <;> rfl
  · rfl

theorem usableEdge_eq_none {e : Engine} {offset : Int} : e.usableEdge offset = none ↔
    e.registered = false ∨ e.edges.find? (fun x => decide (e.hp ≤ x.pos + offset)) = none := by
  unfold Engine.usableEdge
  cases e.registered <;> simp

theorem usableEdge_eq_some {e : Engine} {offset : Int} {x : Edge} : e.usableEdge offset = some x ↔
    e.registered = true ∧ e.edges.find? (fun x => decide (e.hp ≤ x.pos + offset)) = some x := by
  unfold Engine.usableEdge
  cases e.registered <;> simp

/-- The engine at the start of a FEED, before its first search. -/
def Engine.feeding (e : Engine) : Engine := { e with mode := .registering, task := .feedFirst, feedCount := 0 }

/-- What a FEED's start leaves of its searches (R139, R153). -/
theorem feeding_searched (e : Engine) (offset : Int) :
    (e.feeding.feedSearch offset).edges = e.edges.filter (fun x => decide (e.hp ≤ x.pos + offset) || e.tied x.pos) ∧
    (e.feeding.feedSearch offset).feedCount = 0 ∧
    (e.usableEdge offset = none → (e.feeding.feedSearch offset).task = .feedFirst) ∧
    ∀ x, e.usableEdge offset = some x → (e.feeding.feedSearch offset).task = match e.nextEdge? offset x.pos with
      | some y => .feedTo (y.pos + offset)
      | none => .feedSecond x.pos := by
  have edges : (e.feeding.prune offset).edges = e.edges.filter (fun x => decide (e.hp ≤ x.pos + offset) || e.tied x.pos) := rfl
  cases usable : e.usableEdge offset with
  | none =>
    have lost : e.feeding.usableEdge offset = none := usable
    rw [feedSearch_lost rfl lost]
    exact ⟨edges, rfl, fun _ => rfl, nofun⟩
  | some x =>
    have found : e.feeding.usableEdge offset = some x := usable
    rw [feedSearch_found rfl found]
    refine ⟨edges, rfl, nofun, fun y same => ?_⟩
    cases same
    rfl

/-- A FEED's start: the searches from where HP stands, then a blank line from standstill or the pace kept (R133, R134, R153). -/
theorem startFeed_eq {s : State} {r : RunSettings} (set : s.settings = some r) : s.startFeed = s.onEngine fun e =>
    { e with
      mode := .registering, task := (e.feeding.feedSearch r.topOffset).task, edges := (e.feeding.feedSearch r.topOffset).edges,
      feedCount := 0, line := some (e.blankLine r) } := by
  have offset : s.topOffset = r.topOffset := by rw [State.topOffset, set]; rfl
  have searched : s.engine.feeding.feedSearch r.topOffset = { s.engine with
      mode := .registering, task := (s.engine.feeding.feedSearch r.topOffset).task,
      edges := (s.engine.feeding.feedSearch r.topOffset).edges, feedCount := 0 } := by
    obtain ⟨-, count, -, -⟩ := feeding_searched s.engine r.topOffset
    rw [← count]
    exact feedSearch_frame ..
  rw [State.startFeed, startBlank_eq (by exact set), offset]
  exact congrArg (fun e : Engine => ({ s with engine := { e with line := some (e.blankLine r) } } : State)) searched

/-! ### The engine after a step of a FEED -/

theorem fed_frame (e : Engine) (offset : Int) (read : Bool) : e.fed offset read = { e with
    task := (e.fed offset read).task, edges := (e.fed offset read).edges, feedCount := (e.fed offset read).feedCount } := by
  unfold Engine.fed
  dsimp only
  split
  · rw [feedSearch_frame]
  · rfl

theorem prune_eq {e : Engine} (heads : e.heads = []) (offset : Int) :
    e.prune offset = { e with edges := e.edges.filter fun x => decide (e.hp ≤ x.pos + offset) } := by
  rw [← prune_edges heads]
  rfl

/-- The edge that a search of a FEED finds at a reading, if any (R153). -/
def Engine.finds? (e : Engine) (offset : Int) : Option Edge :=
  match e.task with
  | .feedFirst => e.usableEdge offset
  | .feedSecond first => e.nextEdge? offset first
  | _ => none

section
variable {e : Engine} {offset : Int} {read : Bool}

/-- A search that takes no reading, or finds no edge at one, goes on, its line counted. -/
theorem fed_lost (task : e.task = .feedFirst ∨ ∃ first, e.task = .feedSecond first) (lost : read = false ∨ e.finds? offset = none)
    (heads : e.heads = []) : e.fed offset read = { e with
      feedCount := e.feedCount + 1, edges := if read then e.edges.filter (fun x => decide (e.hp ≤ x.pos + offset)) else e.edges } := by
  have counted : { e with feedCount := if e.task.searches then e.feedCount + 1 else e.feedCount } =
      { e with feedCount := e.feedCount + 1 } := by
    obtain task | ⟨first, task⟩ := task <;> simp only [task, Task.searches, if_true]
  unfold Engine.fed
  rw [counted]
  cases read with
  | false => rfl
  | true =>
    have none : e.finds? offset = Option.none := lost.resolve_left nofun
    have pruned := prune_eq (e := { e with feedCount := e.feedCount + 1 }) heads offset
    obtain task | ⟨first, task⟩ := task <;> simp only [Engine.finds?, task] at none
    · exact (feedSearch_lost (e := { e with feedCount := e.feedCount + 1 }) task none).trans pruned
    · exact (feedSearch_second_lost (e := { e with feedCount := e.feedCount + 1 }) task none).trans pruned

/-- The reading that ends the first search. -/
theorem fed_first {x : Edge} (task : e.task = .feedFirst) (found : e.usableEdge offset = some x) (heads : e.heads = []) :
    e.fed offset true = { e with
      feedCount := 0, edges := e.edges.filter fun x => decide (e.hp ≤ x.pos + offset)
      task := match e.nextEdge? offset x.pos with
        | some y => .feedTo (y.pos + offset)
        | none => .feedSecond x.pos } := by
  unfold Engine.fed
  simp only [task, Task.searches, if_true]
  rw [feedSearch_found rfl (e := { e with feedCount := e.feedCount + 1, task := .feedFirst }) found,
    prune_eq (e := { e with feedCount := e.feedCount + 1, task := .feedFirst }) heads]
  rfl

/-- The reading that ends the second search. -/
theorem fed_second {first : Int} {y : Edge} (task : e.task = .feedSecond first) (found : e.nextEdge? offset first = some y)
    (heads : e.heads = []) : e.fed offset true = { e with
      feedCount := 0, edges := e.edges.filter (fun x => decide (e.hp ≤ x.pos + offset)), task := .feedTo (y.pos + offset) } := by
  unfold Engine.fed
  simp only [task, Task.searches, if_true]
  rw [feedSearch_second_found rfl (e := { e with feedCount := e.feedCount + 1, task := .feedSecond first }) found,
    prune_eq (e := { e with feedCount := e.feedCount + 1, task := .feedSecond first }) heads]

theorem fed_to {target : Int} (task : e.task = .feedTo target) : e.fed offset read = e := by
  unfold Engine.fed
  simp only [task, Task.searches, Bool.false_eq_true, if_false]
  split
  · rw [feedSearch_to rfl, ← task]
  · rw [← task]

end

/-! ### The steps of a FEED -/

theorem motorSteps_usableEdge (s : State) (l : Line) (gap : Bool) (offset : Int) :
    (s.motorSteps l gap).engine.usableEdge offset = (s.stepRead gap).usableEdge offset := by
  rw [motorSteps_eq]
  rfl

theorem motorSteps_nextEdge? (s : State) (l : Line) (gap : Bool) (offset first : Int) :
    (s.motorSteps l gap).engine.nextEdge? offset first = (s.stepRead gap).nextEdge? offset first := by
  rw [motorSteps_eq]
  rfl

theorem stepRead_hp (s : State) (gap : Bool) : (s.stepRead gap).hp = s.engine.hp + 1 := by rw [stepRead_frame]

section
variable {s : State} {l : Line} {r : RunSettings} {gap : Bool}

/-- A step of a FEED that neither arrives nor ends a search of 4,800 lines changes the engine alone (R153). -/
theorem State.FeedsOn.goesOn (way : s.FeedsOn l r gap) (runs : s.held = false) {task : Task} {edges : List Edge} {count : Nat}
    (fed : (s.fedOn l r gap).task = task ∧ (s.fedOn l r gap).edges = edges ∧ (s.fedOn l r gap).feedCount = count)
    (short : ∀ target, task = .feedTo target → s.engine.hp + 1 < target)
    (few : s.engine.task.searches = true → s.engine.feedCount < 4799) :
    ∃ t : State, exec (.forwardStep gap) s = .next t ∧ t.engine.mode = .registering ∧ t.engine.task = task ∧ t.engine.edges = edges ∧
      t.engine.feedCount = count ∧ t.engine.hp = (s.stepRead gap).hp ∧ (∃ m, t.engine.line = some m ∧ m.burn = none) ∧
      t = { s with engine := t.engine } := by
  obtain ⟨aim, left, counted⟩ := fed
  have frame : s.fedOn l r gap = _ := fed_frame ..
  have hp : (s.fedOn l r gap).hp = s.engine.hp + 1 := (congrArg Engine.hp frame).trans (motorSteps_hp s l gap)
  have mode : (s.fedOn l r gap).mode = .registering :=
    (congrArg Engine.mode frame).trans ((motorSteps_mode s l gap).trans way.registers)
  have step := way.forwardStep_short (by
    rintro ⟨target, goal, reached⟩
    have ahead := short target (aim.symm.trans goal)
    omega) few
  exact ⟨_, (exec_forwardStep runs gap).trans (congrArg _ step), mode, aim, left, counted, hp.trans (stepRead_hp s gap).symm,
    ⟨_, rfl, rfl⟩, rfl⟩

/-- A search of a FEED that finds nothing at a step: it goes on, or ends in FAULT with NO-GAP at its 4,800th line (R141, R153). -/
theorem State.FeedsOn.searches (way : s.FeedsOn l r gap) (runs : s.held = false)
    (task : s.engine.task = .feedFirst ∧ (s.readsNext = false ∨ (s.stepRead gap).usableEdge r.topOffset = none) ∨
      ∃ first, s.engine.task = .feedSecond first ∧ (s.readsNext = false ∨ (s.stepRead gap).nextEdge? r.topOffset first = none)) :
    ∃ t : State, exec (.forwardStep gap) s = .next t ∧
      (s.engine.feedCount < 4799 → t.engine.mode = .registering ∧ t.engine.task = s.engine.task ∧
        t.engine.edges = (if s.readsNext then (s.stepRead gap).edges.filter (fun x => decide ((s.stepRead gap).hp ≤ x.pos + r.topOffset))
          else s.engine.edges) ∧
        t.engine.feedCount = s.engine.feedCount + 1 ∧ t.engine.hp = (s.stepRead gap).hp ∧
        (∃ m, t.engine.line = some m ∧ m.burn = none) ∧ t = { s with engine := t.engine }) ∧
      (4799 ≤ s.engine.feedCount → t.engine.mode = .fault ∧ t.engine.faults = { FaultSet.none with noGap := true }) := by
  set e := (s.motorSteps l gap).engine
  have aim : e.task = s.engine.task := motorSteps_task s l gap
  have kind : e.task = .feedFirst ∨ ∃ first, e.task = .feedSecond first := by
    rw [aim]
    exact task.imp And.left fun ⟨first, second, _⟩ => ⟨first, second⟩
  have lost : s.readsNext = false ∨ e.finds? r.topOffset = none := by
    rw [Engine.finds?, aim]
    obtain ⟨first, none⟩ | ⟨first, second, none⟩ := task
    · rw [first]
      exact none.imp_right (motorSteps_usableEdge s l gap r.topOffset).trans
    · rw [second]
      exact none.imp_right (motorSteps_nextEdge? s l gap r.topOffset first).trans
  have fed : s.fedOn l r gap = _ := fed_lost kind lost ((motorSteps_heads s l gap).trans way.heads)
  have edges : (s.fedOn l r gap).edges = if s.readsNext then (s.stepRead gap).edges.filter
      (fun x => decide ((s.stepRead gap).hp ≤ x.pos + r.topOffset)) else s.engine.edges := by
    rw [fed]
    dsimp only
    rw [motorSteps_edges, motorSteps_hp, stepRead_hp]
    cases reads : s.readsNext with
    | true => rfl
    | false =>
      rw [stepRead_unread reads]
  have count : (s.fedOn l r gap).feedCount = s.engine.feedCount + 1 := by
    rw [fed]
    exact congrArg (· + 1) (motorSteps_feedCount s l gap)
  have same : (s.fedOn l r gap).task = s.engine.task := by rw [fed, ← aim]
  have searches : s.engine.task.searches = true := by
    rw [← aim]
    obtain first | ⟨first, second⟩ := kind
    · rw [first]
      rfl
    · rw [second]
      rfl
  obtain few | many := lt_or_ge s.engine.feedCount 4799
  · obtain ⟨t, step, goes⟩ := way.goesOn runs ⟨same, edges, count⟩ (fun target goal => by rw [goal] at searches; cases searches) fun _ => few
    exact ⟨t, step, fun _ => goes, fun many => absurd few (not_lt.mpr many)⟩
  · have fault := way.noGap searches same many count (by rw [fed]; exact (motorSteps_mode s l gap).trans way.registers)
      (by rw [fed]; exact (motorSteps_faults s l gap).trans way.faults)
    exact ⟨_, exec_forwardStep runs gap, fun few => absurd few (not_lt.mpr many), fun _ => fault⟩

/-- The reading that ends the first search of a FEED (R153). -/
theorem State.FeedsOn.findsFirst (way : s.FeedsOn l r gap) (task : s.engine.task = .feedFirst) (reads : s.readsNext = true) {x : Edge}
    (found : (s.stepRead gap).usableEdge r.topOffset = some x) :
    ((s.fedOn l r gap).task = match (s.stepRead gap).nextEdge? r.topOffset x.pos with
      | some y => .feedTo (y.pos + r.topOffset)
      | none => .feedSecond x.pos) ∧
    (s.fedOn l r gap).edges = (s.stepRead gap).edges.filter (fun x => decide ((s.stepRead gap).hp ≤ x.pos + r.topOffset)) ∧
    (s.fedOn l r gap).feedCount = 0 := by
  have fed := fed_first ((motorSteps_task s l gap).trans task) ((motorSteps_usableEdge s l gap r.topOffset).trans found)
    ((motorSteps_heads s l gap).trans way.heads)
  rw [State.fedOn, reads, fed, motorSteps_nextEdge?, motorSteps_edges, motorSteps_hp, stepRead_hp]
  exact ⟨rfl, rfl, rfl⟩

/-- The reading that ends the second search of a FEED (R153). -/
theorem State.FeedsOn.findsSecond (way : s.FeedsOn l r gap) {first : Int} (task : s.engine.task = .feedSecond first)
    (reads : s.readsNext = true) {y : Edge} (found : (s.stepRead gap).nextEdge? r.topOffset first = some y) :
    (s.fedOn l r gap).task = .feedTo (y.pos + r.topOffset) ∧
    (s.fedOn l r gap).edges = (s.stepRead gap).edges.filter (fun x => decide ((s.stepRead gap).hp ≤ x.pos + r.topOffset)) ∧
    (s.fedOn l r gap).feedCount = 0 := by
  have fed := fed_second ((motorSteps_task s l gap).trans task) ((motorSteps_nextEdge? s l gap r.topOffset first).trans found)
    ((motorSteps_heads s l gap).trans way.heads)
  rw [State.fedOn, reads, fed, motorSteps_edges, motorSteps_hp, stepRead_hp]
  exact ⟨rfl, rfl, rfl⟩

/-- A FEED on the way to its target looks for no edge (R153). -/
theorem State.FeedsOn.toTarget {target : Int} (task : s.engine.task = .feedTo target) :
    (s.fedOn l r gap).task = .feedTo target ∧ (s.fedOn l r gap).edges = (s.stepRead gap).edges ∧
      (s.fedOn l r gap).feedCount = s.engine.feedCount := by
  have aim := (motorSteps_task s l gap).trans task
  rw [State.fedOn, fed_to aim]
  exact ⟨aim, motorSteps_edges s l gap, motorSteps_feedCount s l gap⟩

/-- The step that brings a FEED to its target: the engine is STOPPED and goes on to its next work (R153). -/
theorem State.FeedsOn.arrives (way : s.FeedsOn l r gap) (runs : s.held = false) (task : s.engine.task = .feedTo (s.stepRead gap).hp) :
    exec (.forwardStep gap) s =
      .next ((s.motorSteps l gap).onEngine fun e => { e.motorStop with mode := .stopped, task := .idle }).goOn := by
  refine (exec_forwardStep runs gap).trans (congrArg _ ?_)
  rw [way.forwardStep (by rw [task]; exact nofun), way.lineEnded]
  refine (way.worked s.readsNext s.freeTick).trans ?_
  exact afterStep_fed ((motorSteps_task s l gap).trans task) (by rw [stepRead_hp]; exact (motorSteps_hp s l gap).ge) s.readsNext

end

/-! ### DRY-RUN-ON taken (R155, R156) -/

theorem exec_dryRunOn {s : State} {p : Port} (can : s.canTake p Kind.dryRunOn.byte []) :
    exec (.dryRunOn p []) s = .next ((s.taken p).takeDryRunOn p) :=
  record_of_parsed (parse := parseEmpty) (act := fun _ s => s.takeDryRunOn p) (r := ()) can rfl

/-- The engine in DRY with nothing in consumption. -/
def State.dried (s : State) : State := s.onEngine fun e => { e with mode := .dry, dryLine := none, leavingDry := false }

theorem enterDry_eq (s : State) : s.enterDry = dryTakeFuel 9 s.dried := rfl

theorem takeDryRunOn_stopped {s : State} (stopped : s.engine.mode = .stopped) (p : Port) :
    s.takeDryRunOn p = s.enterDry.accept p .dryRunOn [] := if_pos stopped

/-- With no FULL band at the take position there is nothing to take in DRY (R156). -/
theorem dryTakeFuel_of_none {s : State} (none : s.takeFull? = none) : ∀ n, dryTakeFuel n s = s
  | 0 => rfl
  | n + 1 => by simp only [dryTakeFuel, none]

theorem skipBand_takeFull? {s : State} (next : (s.buffer (s.ring.take + 1)).state ≠ .full) : s.skipBand.takeFull? = none := by
  have state : (s.skipBand.buffer (s.ring.take + 1)).state ≠ .full := by
    rw [skipBand_buffer]
    split
    · exact BufferState.noConfusion
    · exact next
  exact if_neg state

/-- One VOID band at the take position and none FULL behind it: DRY frees it (R98, R156). -/
theorem dryTakeFuel_void {s : State} {r : BandRecord} (found : s.takeFull? = some r) (void : r.void = true)
    (next : (s.buffer (s.ring.take + 1)).state ≠ .full) (n : Nat) : dryTakeFuel (n + 1) s = s.skipBand.settle := by
  have passed : s.skipBand.settle.takeFull? = none := by rw [settle_takeFull?, skipBand_takeFull? next]
  simp only [dryTakeFuel, found, void, if_true]
  exact dryTakeFuel_of_none passed n

theorem taken_reports (s : State) (p q : Port) : ((s.taken p).port q).reports = (s.port q).reports := by
  rw [taken_port]
  split
  · exact takeFrame_reports _
  · rfl

/-- Settles O34: FEED and DRY-RUN-ON each by the engine's state; the steps of a FEED by its task and by what the step's reading finds. -/
theorem feedAndDryRunOnNeedStopped : Obligations.FeedAndDryRunOnNeedStopped := by
  refine ⟨fun s p can => ⟨fun moves => ?_, fun r stopped set => ?_⟩,
    fun s gap l r h runs set profile registers line heads faults => ?_, fun s p can => ⟨fun moves => ?_, fun stopped none => ?_,
      fun r stopped found void next => ?_, fun r stopped found live => ?_⟩⟩
  · exact (exec_feed can).trans (congrArg _ (if_neg moves))
  · have feeds : exec (.feed p []) s = .next ((s.taken p).startFeed.accept p .feed []) :=
      (exec_feed can).trans (congrArg _ (if_pos stopped))
    rw [startFeed_eq (s := s.taken p) set] at feeds
    obtain ⟨edges, -, lost, found⟩ := feeding_searched s.engine r.topOffset
    refine ⟨_, feeds, rfl, rfl, rfl, edges, ?_, rfl⟩
    rintro _ rfl
    refine ⟨fun none => lost (usableEdge_eq_none.mpr none), ?_⟩
    rintro x _ held usable rfl
    exact found x (usableEdge_eq_some.mpr ⟨held, usable⟩)
  · intro e reads ahead beyond feeds short
    have read : s.stepRead gap = e := stepRead_eq set profile gap
    have reading : s.readsNext = reads := readsNext_eq profile
    clear_value e reads
    subst read reading
    have way (kind : s.engine.task.ofFeed = true) : s.FeedsOn l r gap := ⟨⟨set, .inl registers, line, short⟩, registers, heads, faults, kind⟩
    have still (target : Int) (task : s.engine.task = .feedTo target) (few : s.engine.task.searches = true) :
        s.engine.feedCount < 4799 := by
      rw [task] at few
      cases few
    refine ⟨?_, fun x task few reads held found => ⟨fun none => ?_, fun y next before => ?_⟩, fun first y task few reads next before => ?_,
      fun target task => ⟨fun before => ?_, fun here none => ?_, fun b x here found first live held usable before => ?_⟩⟩
    · rintro _ rfl search
      have kind : s.engine.task.ofFeed = true := by
        obtain ⟨task, -⟩ | ⟨first, task, -⟩ := search <;> rw [task] <;> rfl
      exact (way kind).searches runs (search.imp_left fun ⟨task, lost⟩ => ⟨task, lost.imp_right usableEdge_eq_none.mpr⟩)
    · have searched := (way (by rw [task]; rfl)).findsFirst task reads (usableEdge_eq_some.mpr ⟨held, found⟩)
      have lost : (s.stepRead gap).nextEdge? r.topOffset x.pos = Option.none := none
      rw [lost] at searched
      exact (way (by rw [task]; rfl)).goesOn runs searched nofun fun _ => few
    · have searched := (way (by rw [task]; rfl)).findsFirst task reads (usableEdge_eq_some.mpr ⟨held, found⟩)
      have edge : (s.stepRead gap).nextEdge? r.topOffset x.pos = some y := next
      rw [edge] at searched
      refine (way (by rw [task]; rfl)).goesOn runs searched ?_ fun _ => few
      rintro _ ⟨⟩
      exact (stepRead_hp s gap).symm.trans_lt before
    · have searched := (way (by rw [task]; rfl)).findsSecond task reads (y := y) next
      refine (way (by rw [task]; rfl)).goesOn runs searched ?_ fun _ => few
      rintro _ ⟨⟩
      exact (stepRead_hp s gap).symm.trans_lt before
    · refine (way (by rw [task]; rfl)).goesOn runs (State.FeedsOn.toTarget task) ?_ (still target task)
      rintro _ ⟨⟩
      exact (stepRead_hp s gap).symm.trans_lt before
    · have arrives := (way (by rw [task]; rfl)).arrives runs (task.trans (congrArg _ here))
      rw [goOn_of_nothing (by exact (motorSteps_heads s l gap).trans heads) (by exact none)] at arrives
      exact ⟨_, arrives, rfl, rfl, rfl, (motorSteps_hp s l gap).trans (stepRead_hp s gap).symm, motorSteps_edges s l gap, rfl⟩
    · have arrives := (way (by rw [task]; rfl)).arrives runs (task.trans (congrArg _ here))
      set t := (s.motorSteps l gap).onEngine fun e => { e.motorStop with mode := .stopped, task := .idle } with stopped
      have offset : t.topOffset = r.topOffset := by
        show s.settings.elim 0 RunSettings.topOffset = _
        rw [set]
        rfl
      have goes : t.goOn = (t.onEngine (·.chooseStart t.topOffset)).startMove := engineLook_stopped (s := t) rfl found first live
      have hp : t.engine.hp = (s.stepRead gap).hp := (motorSteps_hp s l gap).trans (stepRead_hp s gap).symm
      obtain ⟨mode, task⟩ := chooseStart_held (e := t.engine) (offset := r.topOffset) (x := x)
        ((motorSteps_registered s l gap).trans held) (by
          rw [hp, ← usable]
          exact congrArg _ (motorSteps_edges s l gap))
      have stays := (chooseStart_kept t.engine r.topOffset).1
      rw [goes, offset, startMove_ahead (.inr ⟨_, _, task, by rw [engine_onEngine, stays, hp]; exact before⟩), startBlank_frame] at arrives
      exact ⟨_, arrives, mode, task, stays.trans hp, rfl⟩
  · exact (exec_dryRunOn can).trans (congrArg _ (if_neg moves))
  · have enters := (exec_dryRunOn can).trans (congrArg _ (takeDryRunOn_stopped (s := s.taken p) stopped p))
    rw [enterDry_eq, dryTakeFuel_of_none (s := (s.taken p).dried) none] at enters
    exact enters
  · have enters := (exec_dryRunOn can).trans (congrArg _ (takeDryRunOn_stopped (s := s.taken p) stopped p))
    rw [enterDry_eq, dryTakeFuel_void (s := (s.taken p).dried) found void next] at enters
    have buffer (i : Fin 8) : (s.taken p).dried.skipBand.settle.buffer i = if s.ring.take = i then Buffer.empty else s.buffer i :=
      (settle_buffer _ i).trans (skipBand_buffer ..)
    have engine : (s.taken p).dried.skipBand.settle.engine = (s.taken p).dried.engine := settle_engine _
    refine ⟨_, enters, congrArg Engine.mode engine, congrArg Engine.dryLine engine, (buffer _).trans (if_pos rfl), ?_,
      fun i other => (buffer i).trans (if_neg other.symm), fun q => (settle_reports _ q).trans (taken_reports s p q), ?_⟩
    · rw [settle_ring]
      rfl
    · rw [settle_frame]
      rfl
  · have enters := (exec_dryRunOn can).trans (congrArg _ (takeDryRunOn_stopped (s := s.taken p) stopped p))
    have look : (s.taken p).enterDry = _ := engineLook_dry (s := (s.taken p).dried) rfl rfl rfl found live
    rw [look] at enters
    exact ⟨_, enters, rfl, rfl, congrArg Buffer.state (markBurning_buffer_take (s.taken p).dried), take_takeDryBand (s.taken p).dried,
      dryHeads_any s.engine r, rfl, rfl, rfl, rfl⟩

end Sys2Proof.Machine
end

section
/-! PROOFS. The line of a label that ends at a step, and what the step makes of a single label at the head: it goes on, is carried out, or
ends (R142 to R148, R154). -/

namespace Sys2Proof.Machine

/-! ### The line that ends (R98, R142, R182) -/

/-- The ports once a line of a label has ended: one that was burned is handed to the watches. -/
def State.portsHanded (s : State) (l : Line) (b : HeadLabel) : Vector PortState 4 :=
  if l.burn.isSome then (s.handLine b.job b.copy b.done).ports else s.ports

/-- The ring once a label has some lines done: its BURNING band is freed if they are all of the band's. -/
def State.ringPast (s : State) (done : Nat) : Ring :=
  match s.burning? with
  | some i => if (s.buffer i).record.any (fun r => r.first + r.count ≤ done) then (s.freeBuffer i).ring else s.ring
  | none => s.ring

/-- The lines of the one label at the head are fed or burned (R142). -/
structure State.LinesOn (s : State) (l : Line) (b : HeadLabel) (r : RunSettings) (gap : Bool) : Prop extends s.Moves l r gap where
  burns : s.engine.mode = .burning
  task  : s.engine.task = .lines
  heads : s.engine.heads = [b]
  out   : b.out = false

/-- The label at the head with a line more done. -/
def HeadLabel.lineDone (b : HeadLabel) : HeadLabel := { b with done := b.done + 1 }

section
variable {s : State} {l : Line} {b : HeadLabel} {r : RunSettings} {gap : Bool}

/-- What the motor's step and the line that ended leave, where a label's lines are under way. -/
theorem State.LinesOn.lineEnded (way : s.LinesOn l b r gap) : s.lineEnded l gap = { s with
    engine := { (s.motorSteps l gap).engine with heads := [b.lineDone] }, ring := s.ringPast (b.done + 1), ports := s.portsHanded l b } := by
  have task := (motorSteps_task s l gap).trans way.task
  have heads := (motorSteps_heads s l gap).trans way.heads
  have head : (s.motorSteps l gap).burningLabel? = some b := by simp [State.burningLabel?, heads, way.out]
  have counted : (s.motorSteps l gap).onHead b.job b.copy (fun h => { h with done := h.done + 1 }) =
      { s with engine := { (s.motorSteps l gap).engine with heads := [b.lineDone] } } := by
    simp only [State.onHead, State.onEngine, heads, List.map_cons, List.map_nil, and_self, if_true]
    rfl
  have freed : ∀ t : State, t.ring = s.ring → (match t.burning? with
      | some i => if (t.buffer i).record.any (fun r => r.first + r.count ≤ b.done + 1) then t.freeBuffer i else t
      | none => t) = { t with ring := s.ringPast (b.done + 1) } := by
    intro t ring
    have burning : t.burning? = s.burning? := by simp only [State.burning?, State.buffer, ring]
    rw [burning, State.ringPast]
    cases s.burning? with
    | none => simp only [← ring]
    | some i =>
      have buffer : t.buffer i = s.buffer i := by rw [State.buffer, ring]; rfl
      by_cases past : ((s.buffer i).record.any fun r => r.first + r.count ≤ b.done + 1) = true
      · simp only [buffer, if_pos past, State.freeBuffer, State.onBuffer, ring]
      · simp only [buffer, if_neg past, ← ring]
  unfold State.lineEnded State.endLine
  rw [task, head]
  dsimp only
  rw [counted]
  refine (freed _ (by split <;> rfl)).trans ?_
  rw [State.portsHanded]
  split <;> rfl

theorem port_portsHanded (s : State) (l : Line) (b : HeadLabel) (p : Port) :
    (s.portsHanded l b)[p] = if l.burn.isSome then (s.port p).handLine b.job b.copy b.done else s.port p := by
  unfold State.portsHanded
  split
  · exact port_mapPorts s (·.handLine b.job b.copy b.done) p
  · rfl

/-- A burned line is handed to the watches on it, and to nothing else; a line fed unburned to none (R142, R182). -/
theorem portsHanded_spec (s : State) (l : Line) (b : HeadLabel) : (l.burn = none → s.portsHanded l b = s.ports) ∧
    (l.burn ≠ none → ∀ p : Port,
      ((s.port p).watch = some ⟨b.job, b.copy, b.done⟩ →
        (s.portsHanded l b)[p].watch = none ∧ Event.positionReached.isIn (s.portsHanded l b)[p].pending = true) ∧
      ((s.port p).watch ≠ some ⟨b.job, b.copy, b.done⟩ → (s.portsHanded l b)[p] = s.port p)) := by
  refine ⟨fun blank => ?_, fun burned p => ?_⟩
  · rw [State.portsHanded, blank]
    rfl
  · rw [port_portsHanded, if_pos (Option.isSome_iff_ne_none.mpr burned), PortState.handLine]
    refine ⟨fun watched => ?_, fun other => if_neg other⟩
    rw [if_pos watched, isIn_post]
    exact ⟨rfl, by simp⟩

end

/-! ### The ring behind the line that ended (R98) -/

theorem burning?_of_sole {s : State} {i : Fin 8} (burns : (s.buffer i).state = .burning)
    (sole : ∀ k, k ≠ i → (s.buffer k).state ≠ .burning) : s.burning? = some i := by
  cases found : s.burning? with
  | none => exact absurd burns (burning?_eq_none.mp found i)
  | some k =>
    by_contra other
    exact sole k (fun same => other (congrArg some same)) (by simpa using List.find?_some found)

theorem burning_of_burning? {s : State} {i : Fin 8} (found : s.burning? = some i) : (s.buffer i).state = .burning := by
  simpa using List.find?_some found

/-- A band with lines left stays. -/
theorem ringPast_of_left {s : State} {i : Fin 8} {x : BandRecord} {done : Nat} (found : s.burning? = some i)
    (record : (s.buffer i).record = some x) (left : done < x.first + x.count) : s.ringPast done = s.ring := by
  simp only [State.ringPast, found, record, Option.any_some, decide_eq_true_eq, if_neg (not_le.mpr left)]

/-- A band with no line left is freed. -/
theorem ringPast_of_done {s : State} {i : Fin 8} {x : BandRecord} {done : Nat} (found : s.burning? = some i)
    (record : (s.buffer i).record = some x) (past : x.first + x.count ≤ done) : s.ringPast done = (s.freeBuffer i).ring := by
  simp only [State.ringPast, found, record, Option.any_some, decide_eq_true_eq, if_pos past]

theorem ringPast_of_none {s : State} (none : s.burning? = none) (done : Nat) : s.ringPast done = s.ring := by
  simp only [State.ringPast, none]

theorem ringPast_take (s : State) (done : Nat) : (s.ringPast done).take = s.ring.take := by
  unfold State.ringPast
  split
  · split <;> rfl
  · rfl

/-- Only a BURNING band is freed behind a line. -/
theorem ringPast_buffer (s : State) (done : Nat) (i : Fin 8) : (s.ringPast done).buffers[i] = s.buffer i ∨
    (s.buffer i).state = .burning ∧ (s.ringPast done).buffers[i] = Buffer.empty := by
  unfold State.ringPast
  split
  next k found =>
    split
    · by_cases same : k = i
      · subst same
        exact .inr ⟨burning_of_burning? found, buffer_onBuffer_self s k fun _ => Buffer.empty⟩
      · exact .inl (buffer_onBuffer_ne s (fun _ => Buffer.empty) same)
    · exact .inl rfl
  · exact .inl rfl

/-- The band at the take position is not touched. -/
theorem takeFull?_of_ringPast {s t : State} {done : Nat} (ring : t.ring = s.ringPast done) : t.takeFull? = s.takeFull? := by
  have take : t.ring.take = s.ring.take := by rw [ring, ringPast_take]
  have buffer : t.buffer s.ring.take = (s.ringPast done).buffers[s.ring.take] := by rw [State.buffer, ring]
  rw [State.takeFull?, State.takeFull?, take, buffer]
  obtain same | ⟨burns, freed⟩ := ringPast_buffer s done s.ring.take
  · rw [same]
  · rw [freed, burns]
    rfl

/-! ### What a step makes of a single label at the head (R144 to R148, R154) -/

section
variable {s : State} {b : HeadLabel}

/-- A state is as it was when its labels at the head are put as they were. -/
theorem onEngine_heads {s : State} {heads : List HeadLabel} (same : s.engine.heads = heads) :
    s.onEngine (fun e => { e with heads := heads }) = s := by
  rw [State.onEngine, ← same]

/-- The ends of a step, with one label at the head that does not become one carried out at it. -/
theorem endsAtStep_single (heads : s.engine.heads = [b]) (stays : (decide (b.length ≤ b.done) && !b.spoiled && !s.isCancelled b.job) = false ∨
    b.out = true) : s.endsAtStep =
      if (b.spoiled && !b.out && decide (b.length ≤ b.done)) then
        (s.endIfDue b).flush (if s.isCancelled b.job then none else s.redoEntry? b.job b.copy)
      else s.endIfDue b := by
  have same : (if b.length ≤ b.done && !b.spoiled && !s.isCancelled b.job then { b with out := true } else b) = b := by
    obtain stays | out := stays
    · rw [stays]
      rfl
    · split
      · rw [← out]
      · rfl
  have put : s.onEngine (fun e => { e with heads := e.heads.map fun h =>
      if h.length ≤ h.done && !h.spoiled && !s.isCancelled h.job then { h with out := true } else h }) = s := by
    simp only [State.onEngine, heads, List.map_cons, List.map_nil, same]
    exact onEngine_heads heads
  simp only [State.endsAtStep, put, heads, List.foldl_cons, List.foldl_nil, List.find?_cons, List.find?_nil]
  cases (b.spoiled && !b.out && decide (b.length ≤ b.done)) <;> rfl

/-- A label with lines left does not end (R142). -/
theorem endsAtStep_goes (heads : s.engine.heads = [b]) (out : b.out = false) (left : b.done < b.length) : s.endsAtStep = s := by
  have lines : decide (b.length ≤ b.done) = false := decide_eq_false (not_le.mpr left)
  rw [endsAtStep_single heads (.inl (by rw [lines]; rfl)), lines, Bool.and_false, State.endIfDue, out, if_neg (not_le.mpr left)]
  rfl

/-- A cancelled label ends VOIDED at its last line (R145). -/
theorem endsAtStep_cancelled (heads : s.engine.heads = [b]) (out : b.out = false) (all : b.length ≤ b.done) (sound : b.spoiled = false)
    (cancelled : s.isCancelled b.job = true) : s.endsAtStep = s.endAtHead b .voided := by
  rw [endsAtStep_single heads (.inl (by simp [cancelled])), sound, State.endIfDue, out, if_pos all, cancelled]
  rfl

/-- A spoiled label ends at its last line, and the ring is flushed (R114, R144). -/
theorem endsAtStep_spoiled (heads : s.engine.heads = [b]) (out : b.out = false) (all : b.length ≤ b.done) (spoiled : b.spoiled = true) :
    s.endsAtStep = (s.endAtHead b (if s.isCancelled b.job then .voided else .spoiled)).flush
      (if s.isCancelled b.job then none else s.redoEntry? b.job b.copy) := by
  rw [endsAtStep_single heads (.inl (by simp [spoiled])), spoiled, State.endIfDue, out, if_pos all, decide_eq_true all]
  rfl

/-- In TEAR mode a label carried out ends PRINTED at its present position (R147). -/
theorem endsAtStep_presented (heads : s.engine.heads = [b]) (out : b.out = true) (tear : s.peels = false)
    (reached : s.presentPosition b ≤ s.engine.hp) : s.endsAtStep = s.endAtHead b .printed := by
  rw [endsAtStep_single heads (.inr out), State.endIfDue, out, tear, decide_eq_true reached, Bool.not_true, Bool.and_false, Bool.false_and]
  rfl

/-- A label burned whole is carried out from its last line on (R146, R147). -/
theorem endsAtStep_whole (heads : s.engine.heads = [b]) (all : b.length ≤ b.done) (sound : b.spoiled = false)
    (live : s.isCancelled b.job = false) (far : s.peels = true ∨ s.engine.hp < s.presentPosition b) :
    s.endsAtStep = s.onEngine fun e => { e with heads := [{ b with out := true }] } := by
  set t := s.onEngine fun e => { e with heads := [{ b with out := true }] } with carried
  have same : s.endsAtStep = t.endsAtStep := by
    have marked : (decide (b.length ≤ b.done) && !b.spoiled && !s.isCancelled b.job) = true := by simp [all, sound, live]
    simp only [State.endsAtStep, heads, carried, State.onEngine, List.map_cons, List.map_nil, marked, if_true, ite_self]
  rw [same]
  refine endsAtStep_of_carried fun x mem => ?_
  obtain rfl := List.mem_singleton.mp mem
  exact ⟨rfl, far⟩

end

/-! ### What the engine does next (R141, R147) -/

section
variable {s : State} {r : RunSettings}

theorem burningLabel?_single {b : HeadLabel} (heads : s.engine.heads = [b]) (out : b.out = false) : s.burningLabel? = some b := by
  simp [State.burningLabel?, heads, out]

/-- After a step within a label its next line starts (R142). -/
theorem afterStep_lines {b : HeadLabel} (task : s.engine.task = .lines) (heads : s.engine.heads = [b]) (out : b.out = false) (read : Bool) :
    s.afterStep read = s.startLabelLine b := by
  simp only [State.afterStep, State.startMove, task, burningLabel?_single heads out, Option.isSome_some, if_true]

/-- After a label's last line the engine presents it or goes on (R147, R148). -/
theorem afterStep_label (task : s.engine.task = .lines) (none : s.burningLabel? = none) (read : Bool) : s.afterStep read = s.afterLabel := by
  simp only [State.afterStep, task, none, Option.isSome_none, Bool.false_eq_true, if_false]

/-- With no label left at the head the engine goes on (R141, R147). -/
theorem afterStep_ended (task : s.engine.task = .lines) (heads : s.engine.heads = []) (read : Bool) : s.afterStep read = s.goOn := by
  rw [afterStep_label task (by simp [State.burningLabel?, heads]), State.afterLabel]
  split
  next found => rw [heads] at found; cases found
  · rfl

theorem readyBand?_of_none (none : s.takeFull? = none) : s.readyBand? = Option.none := by rw [State.readyBand?, none]; rfl

theorem skipVoid_of_none (none : s.takeFull? = none) : s.skipVoid = s := by simp only [State.skipVoid, skipVoidFuel, none]

/-- With no band at the take position the engine carries the one label out (R147). -/
theorem goOn_carries {b : HeadLabel} (heads : s.engine.heads = [b]) (out : b.out = true) (none : s.takeFull? = none)
    (set : s.settings = some r) : s.goOn = s.onEngine fun e =>
      { e with mode := .burning, task := .carry (s.presentPosition b), line := some (e.blankLine r) } := by
  have work : s.outOfWork = s.onEngine fun e => { e with mode := .burning, task := .carry (s.presentPosition b) } := by
    simp [State.outOfWork, heads, out]
  simp only [State.goOn, State.lookForWork, skipVoid_of_none none, readyBand?_of_none none, Option.isSome_none, Bool.false_eq_true, if_false,
    work]
  exact startBlank_eq (by exact set)

/-- For a FULL band 0 at the take position the engine chooses a start and goes on (R141). -/
theorem goOn_chooses {x : BandRecord} (found : s.takeFull? = some x) (first : x.band = 0) (live : x.void = false) :
    s.goOn = (s.onEngine (·.chooseStart s.topOffset)).startMove := by
  rw [State.goOn, State.lookForWork, skipVoid_of_band found live, readyBand?_of_first found first live]
  rfl

/-- Arrived at a present position with no band at the take position, or in PEEL mode, the engine waits in PRESENTING (R147, R148). -/
theorem present_waits (waits : s.peels = true ∨ s.takeFull? = none) :
    s.present = s.onEngine fun e => { e.motorStop with mode := .presenting, task := .idle, absent := 0 } := by
  set t := s.onEngine fun e => { e.motorStop with mode := .presenting, task := .idle, absent := 0 }
  show t.lookFromPresenting = t
  unfold State.lookFromPresenting
  split
  · rfl
  next tear =>
    have none : t.takeFull? = none := waits.resolve_left tear
    simp only [skipVoid_of_none none, readyBand?_of_none none]
    rfl

end

end Sys2Proof.Machine
end

section
/-! PROOFS. The taken sensor, the label taken, the back-feed, and a label presented: O54 (R146 to R149, R154). -/

namespace Sys2Proof.Machine

/-! ### The one label at the head ends (R73, R154) -/

section
variable {s : State} {b : HeadLabel}

/-- What the end of the one label at the head leaves (R139, R154). -/
theorem endAtHead_sole (heads : s.engine.heads = [b]) (o : LabelOutcome) : s.endAtHead b o = { s with
    engine := { s.engine with heads := [], edges := s.engine.edges.filter fun x => b.edge != some x.pos },
    ports := (s.endAtHead b o).ports, queue := (s.endAtHead b o).queue, labels := (s.endAtHead b o).labels } := by
  have gone : (s.endLabel b.job b.copy o (s.mismatch b)).engine.heads = [] := by
    rw [endLabel_heads, heads]
    simp
  unfold State.endAtHead
  rw [endLabel_frame, gone]
  rfl

/-- The end's report is the last on the origin port's list (R76, R154). -/
theorem endAtHead_reports {j : Job} {l : LabelRecord} (queued : s.job? b.job = some j) (found : s.label? b.job b.copy = some l)
    (o : LabelOutcome) :
    ((s.endAtHead b o).port j.origin).reports.getLast? = some (.completion (completionOf j l o (s.mismatch b))) :=
  endLabel_reports queued found o (s.mismatch b)

/-- Settling takes out no job under whose number none is cancelled (R72). -/
theorem settle_job?_of_live {n : Nat} (live : ∀ k ∈ s.queue, k.number = n → k.cancelled = false) : s.settle.job? n = s.job? n := by
  refine (Option.eq_of_eq_some fun k => ⟨job?_of_settle, fun found => ?_⟩)
  rw [State.job?, settle_queue,
    find?_job_filter fun m => s.queue.all fun j => !(j.cancelled && !s.settle.jobInFlight j.number) || m != j.number, if_pos]
  · exact found
  · rw [List.all_eq_true]
    intro j mem
    by_cases same : j.number = n
    · simp [live j mem same]
    · simp [Ne.symm same]

/-- The jobs counted at a label end are those of the queue, their counts apart (R73). -/
theorem cancelled_of_endCounted {job : Nat} {j k : Job} {o : LabelOutcome} (mem : k ∈ (s.endCounted job j o).queue) :
    ∃ m ∈ s.queue, m.number = k.number ∧ m.cancelled = k.cancelled := by
  have counted : ∀ t : State, t.queue = s.queue → k ∈ (t.onJob job fun j => { j with completed := j.completed + 1 }).queue →
      ∃ m ∈ s.queue, m.number = k.number ∧ m.cancelled = k.cancelled := by
    intro t same mem
    obtain ⟨m, among, rfl⟩ := List.mem_map.mp mem
    refine ⟨m, same ▸ among, ?_⟩
    split <;> exact ⟨rfl, rfl⟩
  unfold State.endCounted at mem
  dsimp only at mem
  split at mem <;> split at mem
  · exact counted s rfl (List.mem_filter.mp mem).1
  · exact ⟨k, (List.mem_filter.mp mem).1, rfl, rfl⟩
  · exact counted s rfl mem
  · exact ⟨k, mem, rfl, rfl⟩

/-- A job's number is free once its last copy ended; else it counts a copy more (R73). -/
theorem endAtHead_job? {j : Job} {l : LabelRecord} {o : LabelOutcome} (queued : s.job? b.job = some j)
    (found : s.label? b.job b.copy = some l) (completes : o.completes = true) :
    (j.completed + 1 = j.total → (s.endAtHead b o).job? b.job = none) ∧
      (j.completed + 1 ≠ j.total → (∀ k ∈ s.queue, k.number = b.job → k.cancelled = false) →
        (s.endAtHead b o).job? b.job = some { j with completed := j.completed + 1 }) := by
  have counted := endCounted_job? ((reported_job? s (completionOf j l o (s.mismatch b)) b.job b.copy b.job).trans queued) o b.job
  rw [if_pos rfl, Job.afterEnd, if_pos completes] at counted
  have ended : (s.endAtHead b o).job? b.job =
      (((s.placeCompletion (completionOf j l o (s.mismatch b))).labelOff b.job b.copy).endCounted b.job j o).settle.job? b.job := by
    rw [← endLabel_known queued found]
    rfl
  refine ⟨fun last => ?_, fun more live => ?_⟩
  · rw [if_pos last] at counted
    refine ended.trans (Option.eq_none_iff_forall_ne_some.mpr fun k still => ?_)
    have was := job?_of_settle still
    rw [counted] at was
    cases was
  · rw [if_neg more] at counted
    refine (ended.trans (settle_job?_of_live fun k mem number => ?_)).trans counted
    obtain ⟨m, among, same, flag⟩ := cancelled_of_endCounted mem
    rw [placeCompletion_frame] at among
    rw [← flag]
    exact live m among (same.trans number)

end

/-! ### The taken sensor and the back-feed (R148, R149) -/

section
variable {s : State}

theorem exec_takenSensorSample (runs : s.held = false) (absent : Bool) : exec (.takenSensorSample absent) s = .next
    (if s.samples then s.onEngine fun e => { e with absent := absentAfter e.absent absent } else s) :=
  running_of_not_held runs fun s => if s.samples then s.onEngine fun e => { e with absent := absentAfter e.absent absent } else s

theorem exec_labelTaken (runs : s.held = false) : exec .labelTaken s = .next
    (if s.samples && 7 ≤ s.engine.absent then s.labelTaken else s) :=
  running_of_not_held runs fun s => if s.samples && 7 ≤ s.engine.absent then s.labelTaken else s

theorem exec_backFeedStep (runs : s.held = false) : exec .backFeedStep s = .next s.backFeed := running_of_not_held runs State.backFeed

theorem samples_of_presenting (mode : s.engine.mode = .presenting) (peels : s.peels = true) : s.samples = true := by
  simp [State.samples, mode, peels]

theorem absentAfter_of_few {count : Nat} (few : count < 8) (absent : Bool) :
    absentAfter count absent = if absent then count + 1 else 0 := if_neg (not_le.mpr few)

/-- The one presented label is taken: it ends PRINTED, and the retract begins (R148, R149). -/
theorem exec_labelTaken_sole (runs : s.held = false) (mode : s.engine.mode = .presenting) (peels : s.peels = true)
    (absent : 7 ≤ s.engine.absent) {b : HeadLabel} (heads : s.engine.heads = [b]) (out : b.out = true) :
    exec .labelTaken s = .next (s.endAtHead b .printed).retract := by
  rw [exec_labelTaken runs, samples_of_presenting mode peels, decide_eq_true absent, Bool.and_self, if_pos rfl, State.labelTaken, heads,
    List.find?_cons_of_pos out]

/-- A back-feed step with lines left (R149). -/
theorem backFeed_goes (mode : s.engine.mode = .retracting) (left : 2 ≤ s.engine.backLeft) : s.backFeed = s.onEngine fun e =>
    { e with hp := e.hp - 1, backLeft := e.backLeft - 1, backPeriod := max 2500 (ceilDiv (7 * e.backPeriod) 8) } := by
  rw [State.backFeed, if_pos mode]
  exact if_neg (by show s.engine.backLeft - 1 ≠ 0; omega)

/-- The engine at the end of a retract, about to choose its next work (R149). -/
def State.retracted (s : State) : State :=
  s.onEngine fun e => { e.motorStop with hp := e.hp - 1, backLeft := 0, mode := .stopped, task := .idle, backPeriod := 0 }

/-- The last back-feed step of a retract (R149). -/
theorem backFeed_ends (mode : s.engine.mode = .retracting) (last : s.engine.backLeft = 1) : s.backFeed = s.retracted.goOn := by
  have none : s.engine.backLeft - 1 = 0 := by omega
  rw [State.backFeed, if_pos mode]
  refine (if_pos none).trans (congrArg State.goOn ?_)
  simp only [State.retracted, State.onEngine, Engine.motorStop, none]

theorem goOn_hp (s : State) : s.goOn.engine.hp = s.engine.hp := (works_goOn s).hp

/-- The next work is never a retract (R141, R147). -/
theorem goOn_not_retracting (s : State) : s.goOn.engine.mode ≠ .retracting := by
  have look : s.lookForWork.engine.mode ≠ .retracting := by
    unfold State.lookForWork State.outOfWork Engine.chooseStart
    dsimp only
    split
    · rw [engine_onEngine]
      split <;> nofun
    · split <;> nofun
  obtain same | paused := startMove_mode s.lookForWork
  · rwa [State.goOn, same]
  · rw [State.goOn, paused]
    nofun

/-- A label record found under a name has it (R99). -/
theorem label?_copy {job copy : Nat} {l : LabelRecord} (found : s.label? job copy = some l) : l.copy = copy := by
  have named := List.find?_some found
  simp only [Bool.and_eq_true, beq_iff_eq] at named
  exact named.2

end

/-! ### The label presented (R146 to R148) -/

section
variable {s : State} {l : Line} {b : HeadLabel} {r : RunSettings} {gap : Bool}

theorem peels_of_set (set : s.settings = some r) : s.peels = decide (r.present = .peel) := by simp [State.peels, set]

/-- A step on the way to a present position ends no label line. -/
theorem State.Moves.carries (way : s.Moves l r gap) (runs : s.held = false) {target : Int} (task : s.engine.task = .carry target) :
    exec (.forwardStep gap) s = .next ((s.motorSteps l gap).worked s.readsNext) := by
  rw [exec_forwardStep runs, way.forwardStep (by simp [task, Task.searches]), lineEnded_of_task (by simp [task])]

theorem afterStep_arrives {target : Int} (task : s.engine.task = .carry target) (reached : target ≤ s.engine.hp) (read : Bool) :
    s.afterStep read = s.present := by
  simp only [State.afterStep, task, if_pos reached]

/-- In PEEL mode with E = 0 a label burned whole is presented at once (R148). -/
theorem afterLabel_presents (peels : s.peels = true) (heads : s.engine.heads = [b]) (out : b.out = true) (near : s.peelDistance = 0) :
    s.afterLabel = s.present := by
  have found : s.engine.heads.find? (·.out) = some b := by rw [heads, List.find?_cons_of_pos out]
  simp only [State.afterLabel, peels, found, if_pos near]

/-- The length-mismatch flag, by the edge record and the length tolerance (R154). -/
theorem mismatch_iff (set : s.settings = some r) : s.mismatch b = true ↔ ∃ (x : Edge) (n : Int), b.edge = some x.pos ∧
    s.engine.edges.find? (fun y => y.pos == x.pos) = some x ∧ x.length = some n ∧ r.tolerance < (n - (b.length : Int)).natAbs := by
  unfold State.mismatch
  constructor
  · intro far
    split at far
    · cases far
    next x found =>
      obtain ⟨pos, edge, among⟩ := Option.bind_eq_some_iff.mp found
      obtain rfl : x.pos = pos := by simpa using List.find?_some among
      obtain ⟨n, length, beyond⟩ := (Option.any_eq_true ..).mp far
      exact ⟨x, n, edge, among, length, by simpa [set] using beyond⟩
  · rintro ⟨x, n, edge, among, length, beyond⟩
    simp [edge, among, length, set, beyond]

end

/-- Settles O54, clause by clause: the samples; the label taken with a retract to come; the back-feed; the present position reached in TEAR
mode; the label presented at its last line with E = 0; the label taken with no retract. -/
theorem presentedLabelIsTaken : Obligations.PresentedLabelIsTaken := by
  refine ⟨?sample, ?taken, ?back, ?lastBack, ?tear, ?atOnce, ?takenAtOnce⟩
  case sample =>
    intro s absent runs mode peels few
    rw [exec_takenSensorSample runs, if_pos (samples_of_presenting mode peels)]
    simp only [State.onEngine, absentAfter_of_few few]
  case taken =>
    intro s b j l runs mode peels absent heads out queued found far unique
    have frame := endAtHead_sole heads .printed
    set t := s.endAtHead b .printed with ended
    have distance : t.peelDistance = s.profile.elim 0 HeadProfile.peel := by rw [frame]; rfl
    have retract : t.retract = t.onEngine fun e =>
        { e.motorStop with mode := .retracting, task := .idle, backLeft := t.peelDistance, backPeriod := 8000 } :=
      if_neg (by rw [distance]; omega)
    have jobs := endAtHead_job? queued found (o := .printed) rfl
    refine ⟨_, completionOf j l .printed (s.mismatch b), exec_labelTaken_sole runs mode peels absent heads out, ?_⟩
    rw [retract]
    refine ⟨rfl, by rw [frame]; rfl, distance, rfl, by rw [frame]; rfl, endAtHead_reports queued found .printed, rfl, label?_copy found, rfl,
      rfl, rfl, jobs.1, fun more live => ?_, ?_⟩
    · exact jobs.2 (by omega) fun k mem number => by rw [unique k mem number, live]
    · rw [frame]
      rfl
  case back =>
    intro s runs mode left
    rw [exec_backFeedStep runs, backFeed_goes mode left]
    rfl
  case lastBack =>
    intro s runs mode last
    refine ⟨_, (exec_backFeedStep runs).trans (congrArg _ (backFeed_ends mode last)), goOn_hp _, goOn_not_retracting _,
      fun free heads => ?_, ?_⟩
    · rw [goOn_of_nothing (by exact heads) (takeFull?_of_free (by exact free))]
      rfl
    · rw [goOn_frame]
      rfl
  case tear =>
    intro s gap l b j lr h rs runs mode line task heads out position profile set tear none free queued found read short
    have way : s.Moves l rs gap := ⟨set, .inr mode, line, by rw [stepRead_eq set profile]; exact short⟩
    set m := s.motorSteps l gap with moved
    have headsNow : m.engine.heads = [b] := (motorSteps_heads s l gap).trans heads
    have hp : m.engine.hp = s.engine.hp + 1 := motorSteps_hp s l gap
    have peels : m.peels = false := by rw [peels_of_set (by exact set), tear]; rfl
    have ends : m.endsAtStep = m.endAtHead b .printed :=
      endsAtStep_presented headsNow out peels (by rw [hp, ← position]; exact le_refl _)
    have frame := endAtHead_sole headsNow .printed
    set t := m.endAtHead b .printed with ended
    have arrives : m.worked s.readsNext = t.present := by
      rw [State.worked, ends]
      exact afterStep_arrives (target := s.engine.hp + 1) (by rw [frame]; exact (motorSteps_task s l gap).trans task)
        (by rw [frame]; exact hp.ge) _
    refine ⟨t.present, completionOf j lr .printed (m.mismatch b),
      (way.carries runs task).trans (congrArg _ arrives), ?_⟩
    rw [present_waits (.inr (takeFull?_of_free (by rw [frame]; exact free)))]
    refine ⟨rfl, by rw [frame]; rfl, by rw [frame]; exact hp, rfl, endAtHead_reports (s := m) queued found .printed, rfl, rfl, rfl, rfl,
      rfl, ?_, ?_⟩
    · refine (mismatch_iff (s := m) (by exact set)).trans ?_
      rw [motorSteps_edges, stepRead_eq set profile]
    · rw [frame]
      rfl
  case atOnce =>
    intro s gap l b h rs runs mode line task heads out sound live last profile near set peel none short
    have way : s.LinesOn l b rs gap := ⟨⟨set, .inr mode, line, by rw [stepRead_eq set profile]; exact short⟩, mode, task, heads, out⟩
    have frame := way.lineEnded
    set m := s.lineEnded l gap with moved
    have peels : m.peels = true := by rw [frame]; exact (peels_of_set set).trans (by rw [peel]; rfl)
    have ends : m.endsAtStep = _ := endsAtStep_whole (b := b.lineDone) (by rw [frame]) last.ge sound (by rw [frame]; exact live) (.inl peels)
    set t := m.onEngine fun e => { e with heads := [{ b.lineDone with out := true }] } with carried
    have after : m.worked s.readsNext = t.present := by
      rw [State.worked, ends, afterStep_label (by rw [carried, frame]; exact (motorSteps_task s l gap).trans task)
        (by simp [carried, State.burningLabel?])]
      exact afterLabel_presents peels rfl rfl (by rw [carried, frame]; exact (congrArg (Option.elim · 0 HeadProfile.peel) profile).trans near)
    refine ⟨t.present, (exec_forwardStep runs gap).trans (congrArg _ ((way.forwardStep (by simp [task, Task.searches])).trans
      after)), ?_⟩
    rw [present_waits (s := t) (.inl peels)]
    refine ⟨rfl, rfl, rfl, rfl, ?_, ?_⟩
    · rw [carried, frame]
      exact motorSteps_hp s l gap
    · rw [carried, frame]
      rfl
  case takenAtOnce =>
    intro s b j l runs mode peels absent heads out queued found near free
    have frame := endAtHead_sole heads .printed
    set t := s.endAtHead b .printed with ended
    have distance : t.peelDistance = 0 := by rw [frame]; exact near
    have retract : t.retract = _ := (if_pos distance).trans
      (goOn_of_nothing (by rw [frame]; rfl) (takeFull?_of_free (by rw [frame]; exact free)))
    refine ⟨_, completionOf j l .printed (s.mismatch b), exec_labelTaken_sole runs mode peels absent heads out, ?_⟩
    rw [retract]
    refine ⟨rfl, by rw [frame]; rfl, by rw [frame]; rfl, endAtHead_reports queued found .printed, rfl, label?_copy found, rfl, ?_⟩
    rw [frame]
    rfl

end Sys2Proof.Machine
end

section
/-! PROOFS. The lines of a label that are burned: line 0 at the chosen start, and each later line from its band (R129, R141, R142). -/

namespace Sys2Proof.Machine

/-! ### A line burned (R129, R133) -/

/-- The line burned at an engine's pace, history and readings (R121, R129, R133). -/
def Engine.burnLine (e : Engine) (h : HeadProfile) (r : RunSettings) (y : Nat) (bits : List Bool) : Line :=
  let times := classTimes r e.temperature e.voltage
  let phases := phasePlan h r times (classOf e.history1 e.history2) y bits
  { period := linePeriod (requiredPeriod phases) (minimumPeriod r.speed e.hot) (rampFloor e.prevPeriod)
    required := requiredPeriod phases
    burn := some { bits := bits, times := times }
    phases := phases
    strobe := if phases.isEmpty then .off else .on
    enabled := ((phases.head?).map Phase.dots).getD [] }

section
variable {s : State} {h : HeadProfile} {rs : RunSettings}

theorem startBurn_eq (set : s.settings = some rs) (profile : s.profile = some h) (y : Nat) (bits : List Bool) :
    s.startBurn y bits = s.onEngine fun e => { e with line := some (e.burnLine h rs y bits) } := by
  simp only [State.startBurn, set, profile]
  rfl

/-- An engine with a line behind it: its burned dots, the ones of the line before, and its period (R126, R133). -/
def Engine.behind (e : Engine) (dots : Nat) (l : Line) : Engine :=
  { e with
    history1 := l.burn.elim (List.replicate dots false) Burn.bits, history2 := e.history1, prevPeriod := some l.period }

/-- After a step the history holds the line that ended and the one before it, and that line's period is the previous one (R126, R133). -/
theorem motorSteps_burnLine (profile : s.profile = some h) (l : Line) (gap : Bool) (y : Nat) (bits : List Bool) :
    (s.motorSteps l gap).engine.burnLine h rs y bits = (s.engine.behind h.dots l).burnLine h rs y bits := by
  have shifted : (s.motorSteps l gap).engine.history1 = l.burn.elim (List.replicate h.dots false) Burn.bits ∧
      (s.motorSteps l gap).engine.history2 = s.engine.history1 := by
    rw [motorSteps_eq, profile, stepRead_frame]
    refine ⟨?_, rfl⟩
    cases burn : l.burn <;> simp only [Engine.shiftHistory, burn] <;> rfl
  rw [motorSteps_engine, shifted.1, shifted.2]
  rfl

end

/-- What a line is burned from is not the labels at the head, nor the task (R129). -/
theorem burnLine_atHead (e : Engine) (heads : List HeadLabel) (task : Task) (h : HeadProfile) (r : RunSettings) (y : Nat) (bits : List Bool) :
    ({ e with heads := heads, task := task } : Engine).burnLine h r y bits = e.burnLine h r y bits := rfl

/-- A line started at an engine's pace, the pace said. -/
theorem onEngine_line {s : State} {line : Engine → Line} {m : Line} (same : line s.engine = m) :
    s.onEngine (fun e => { e with line := some (line e) }) = s.onEngine fun e => { e with line := some m } := by
  rw [State.onEngine, same]
  rfl

/-- A label line's burn bits, in a band's buffer (R110, R142). -/
theorem lineBits_eq {s : State} {i : Fin 8} {x : BandRecord} {n : Nat} {j : Job} {f : Form} (record : (s.buffer i).record = some x)
    (queued : s.job? n = some j) (active : s.activeForm j.form = some f) (y : Nat) :
    s.lineBits i n y = ((s.buffer i).cells.getD (y - x.first) []).map (Cell.burns f.printPlanes) := by
  simp only [State.lineBits, record, queued, Option.bind_some, active, Option.elim_some, Option.map_some, Option.getD_some]

/-- Taken at the take position a band burns; its record and cells are as they were (R98). -/
theorem takeBand_buffer_take (s : State) : s.takeBand.buffer s.ring.take = { s.buffer s.ring.take with state := .burning } :=
  markBurning_buffer_take s

theorem takeBand_buffer_ne (s : State) {k : Fin 8} (other : k ≠ s.ring.take) : s.takeBand.buffer k = s.buffer k :=
  markBurning_buffer_ne s other.symm

theorem takeBand_ring {s t : State} (ring : t.ring = s.ring) : t.takeBand.ring = s.takeBand.ring := by
  simp only [State.takeBand, State.advanceTake, State.markBurning, State.onBuffer, ring]

/-- The ring once the band at the take position is taken (R98). -/
theorem taken_ring {s t : State} (ring : t.ring = s.takeBand.ring) : (t.buffer s.ring.take).state = .burning ∧
    (t.buffer s.ring.take).record = (s.buffer s.ring.take).record ∧ t.ring.take = s.ring.take + 1 ∧
    ∀ i, i ≠ s.ring.take → t.buffer i = s.buffer i := by
  have buffer : ∀ i, t.buffer i = s.takeBand.buffer i := fun i => by rw [State.buffer, ring]; rfl
  refine ⟨by rw [buffer, takeBand_buffer_take], by rw [buffer, takeBand_buffer_take], by rw [ring]; rfl, fun i other => ?_⟩
  rw [buffer, takeBand_buffer_ne s other]

/-- With a line started in the band taken, the ring and the engine alone have changed (R98, R142). -/
theorem takenLine_frame (s : State) (e : Engine) (r : Ring) (p : Vector PortState 4) (f : Engine → Engine) :
    ({ s with engine := e, ring := r, ports := p } : State).takeBand.onEngine f = { s with
      engine := (({ s with engine := e, ring := r, ports := p } : State).takeBand.onEngine f).engine
      ring := (({ s with engine := e, ring := r, ports := p } : State).takeBand.onEngine f).ring
      ports := p } := rfl

/-- The buffer at the take position is told by the ring. -/
theorem takeBuffer_of_ring {s t : State} (ring : t.ring = s.ring) : t.buffer t.ring.take = s.buffer s.ring.take := by
  rw [State.buffer, ring]
  rfl

theorem BandRecord.hasLine_of {x : BandRecord} {job copy y : Nat} (own : x.job = job ∧ x.copy = copy) (begun : x.first ≤ y)
    (before : y < x.first + x.count) : x.hasLine job copy y = true := by
  simp [BandRecord.hasLine, own, begun, before]

section
variable {s : State} {h : HeadProfile} {rs : RunSettings} {b : HeadLabel} {x : BandRecord} {j : Job} {f : Form}

/-- A label's line in the BURNING band (R142). -/
theorem startLabelLine_fromBurning {i : Fin 8} (sound : b.spoiled = false) (live : s.isCancelled b.job = false) (burning : s.burning? = some i)
    (record : (s.buffer i).record = some x) (line : x.hasLine b.job b.copy b.done = true) :
    s.startLabelLine b = s.startBurn b.done (s.lineBits i b.job b.done) := by
  have has : s.burningHas b.job b.copy b.done = true := by rw [State.burningHas, burning, Option.any_some, record]; exact line
  simp only [State.startLabelLine, sound, Bool.false_eq_true, if_false, has, Bool.not_true, Bool.false_and, live, if_true, burning]

/-- A label's line burned from the band taken for it at the take position (R98, R142). -/
theorem startLabelLine_taken (set : s.settings = some rs) (profile : s.profile = some h) (sound : b.spoiled = false)
    (queued : s.job? b.job = some j) (live : j.cancelled = false) (active : s.activeForm j.form = some f)
    (idle : ∀ k, (s.buffer k).state ≠ .burning) (found : s.takeFull? = some x) (line : x.hasLine b.job b.copy b.done = true)
    {bits : List Bool} (burns : ((s.buffer s.ring.take).cells.getD (b.done - x.first) []).map (Cell.burns f.printPlanes) = bits) :
    s.startLabelLine b = s.takeBand.onEngine fun e => { e with line := some (e.burnLine h rs b.done bits) } := by
  have planes := lineBits_eq (s := s.takeBand) (i := s.ring.take) (x := x) (n := b.job) (j := j) (f := f)
    ((congrArg Buffer.record (takeBand_buffer_take s)).trans (takeFull?_eq_some.mp found).2) queued active b.done
  rw [takeBand_buffer_take] at planes
  rw [startLabelLine_fromTake sound (by simp [State.isCancelled, queued, live]) idle found line, startBurn_eq (by exact set) (by exact profile),
    planes, burns]

end

/-! ### Line 0 (R141, R142) -/

/-- The label waiting at the take position, put at the head at its start (R141). -/
def BandRecord.headAt (x : BandRecord) (start edge : Int) (length : Nat) : HeadLabel :=
  { job := x.job, copy := x.copy, start := start, length := length, edge := some edge, done := 0, out := false, spoiled := false }

theorem headAt_done (x : BandRecord) (start edge : Int) (length : Nat) : (x.headAt start edge length).done = 0 := rfl

theorem beginAtHead_eq {s : State} {x : BandRecord} {j : Job} {f : Form} (found : s.takeFull? = some x) (queued : s.job? x.job = some j)
    (active : s.activeForm j.form = some f) (start edge : Int) : s.beginAtHead start edge =
      (s.onEngine fun e => { e with heads := e.heads ++ [x.headAt start edge f.length], task := .lines }).startLabelLine
        (x.headAt start edge f.length) := by
  simp only [State.beginAtHead, found, queued, Option.bind_some, active]
  rfl

/-- At the step that reaches the chosen start the waiting label is at the head and its line 0 is burned (R141, R142). -/
theorem State.Moves.begins {s : State} {l : Line} {rs : RunSettings} {gap : Bool} (way : s.Moves l rs gap) (runs : s.held = false)
    {edge : Int} (task : s.engine.task = .approach (s.engine.hp + 1) edge) (heads : s.engine.heads = []) {x : BandRecord}
    (found : s.takeFull? = some x) {j : Job} {f : Form} (queued : s.job? x.job = some j) (active : s.activeForm j.form = some f) :
    exec (.forwardStep gap) s = .next (((s.motorSteps l gap).onEngine fun e =>
      { e with heads := [x.headAt (s.engine.hp + 1) edge f.length], task := .lines }).startLabelLine
        (x.headAt (s.engine.hp + 1) edge f.length)) := by
  set m := s.motorSteps l gap with moved
  have taskNow : m.engine.task = .approach (s.engine.hp + 1) edge := (motorSteps_task s l gap).trans task
  have headsNow : m.engine.heads = [] := (motorSteps_heads s l gap).trans heads
  have reached : s.engine.hp + 1 ≤ m.engine.hp := (motorSteps_hp s l gap).ge
  have begins := beginAtHead_eq (s := m) found queued active (s.engine.hp + 1) edge
  simp only [State.onEngine, headsNow, List.nil_append] at begins
  rw [exec_forwardStep runs, way.forwardStep (by simp [task, Task.searches]), lineEnded_of_task (by simp [task]), State.worked,
    endsAtStep_of_carried (by simp [← moved, headsNow])]
  simp only [State.afterStep, ← moved, taskNow, State.startMove, if_pos reached, begins]
  rfl

/-- The step that reaches the chosen start burns line 0 of the waiting label (R141, R142). -/
theorem State.Moves.burnsFirst {s : State} {l : Line} {rs : RunSettings} {gap : Bool} {h : HeadProfile} {x : BandRecord} {j : Job} {f : Form}
    {edge : Int} (way : s.Moves l rs gap) (runs : s.held = false) (task : s.engine.task = .approach (s.engine.hp + 1) edge)
    (heads : s.engine.heads = []) (profile : s.profile = some h) (found : s.takeFull? = some x) (zero : x.first = 0) (holds : 0 < x.count)
    (none : s.burning? = none) (queued : s.job? x.job = some j) (live : j.cancelled = false) (active : s.activeForm j.form = some f) :
    ∃ t : State, exec (.forwardStep gap) s = .next t ∧ t.ring = s.takeBand.ring ∧ t.engine = { (s.motorSteps l gap).engine with
        heads := [x.headAt (s.engine.hp + 1) edge f.length], task := .lines,
        line := some ((s.engine.behind h.dots l).burnLine h rs 0
          (((s.buffer s.ring.take).cells.getD 0 []).map (Cell.burns f.printPlanes))) } ∧
      t = { s with ring := t.ring, engine := t.engine } := by
  have starts := startLabelLine_taken (s := (s.motorSteps l gap).onEngine fun e =>
    { e with heads := [x.headAt (s.engine.hp + 1) edge f.length], task := .lines }) (b := x.headAt (s.engine.hp + 1) edge f.length)
    way.set profile rfl queued live active (burning?_eq_none.mp none) found
    (BandRecord.hasLine_of ⟨rfl, rfl⟩ zero.le (by rw [zero]; exact Nat.lt_of_lt_of_eq holds (Nat.zero_add _).symm))
    (congrArg (fun c : Buffer => (c.cells.getD (0 - x.first) []).map (Cell.burns f.printPlanes))
      (takeBuffer_of_ring (s := s) (t := (s.motorSteps l gap).onEngine _) rfl))
  rw [onEngine_line ((burnLine_atHead (s.motorSteps l gap).engine ..).trans (motorSteps_burnLine profile l gap _ _))] at starts
  rw [zero, Nat.sub_zero, headAt_done] at starts
  exact ⟨_, (way.begins runs task heads found queued active).trans (congrArg _ starts),
    takeBand_ring (s := s) (t := (s.motorSteps l gap).onEngine _) rfl, rfl, takenLine_frame s ..⟩

/-! ### A line of a label under way (R142) -/

/-- The state once a line of the label at the head has ended and is behind it (R98, R142). -/
def State.past (s : State) (l : Line) (b : HeadLabel) (gap : Bool) : State := { s with
  engine := { (s.motorSteps l gap).engine with heads := [b.lineDone] }, ring := s.ringPast (b.done + 1), ports := s.portsHanded l b }

section
variable {s : State} {l : Line} {b : HeadLabel} {rs : RunSettings} {gap : Bool}

theorem past_task (way : s.LinesOn l b rs gap) : (s.past l b gap).engine.task = .lines := (motorSteps_task s l gap).trans way.task

theorem State.LinesOn.steps (way : s.LinesOn l b rs gap) (runs : s.held = false) :
    exec (.forwardStep gap) s = .next ((s.past l b gap).worked s.readsNext) := by
  rw [exec_forwardStep runs, way.forwardStep (by simp [way.task, Task.searches]), way.lineEnded]
  rfl

/-- With lines left the label goes on with its next line (R142). -/
theorem State.LinesOn.goes (way : s.LinesOn l b rs gap) (runs : s.held = false) (left : b.done + 1 < b.length) :
    exec (.forwardStep gap) s = .next ((s.past l b gap).startLabelLine b.lineDone) := by
  have stays : (s.past l b gap).endsAtStep = s.past l b gap := endsAtStep_goes (b := b.lineDone) rfl way.out left
  rw [way.steps runs, State.worked, stays, afterStep_lines (past_task way) rfl way.out]

theorem past_isCancelled (s : State) (l : Line) (b : HeadLabel) (gap : Bool) (n : Nat) : (s.past l b gap).isCancelled n = s.isCancelled n :=
  rfl

theorem past_hp (s : State) (l : Line) (b : HeadLabel) (gap : Bool) : (s.past l b gap).engine.hp = s.engine.hp + 1 := motorSteps_hp s l gap

theorem past_mode (way : s.LinesOn l b rs gap) : (s.past l b gap).engine.mode = .burning := (motorSteps_mode s l gap).trans way.burns

end

section
variable {s : State} {l : Line} {b : HeadLabel} {rs : RunSettings} {gap : Bool} {i : Fin 8} {x : BandRecord}

/-- Behind the last line of the one BURNING band nothing burns; that buffer is empty, the others are as they were (R98). -/
theorem past_buffers (burns : (s.buffer i).state = .burning) (sole : ∀ k, k ≠ i → (s.buffer k).state ≠ .burning)
    (record : (s.buffer i).record = some x) (all : x.first + x.count ≤ b.done + 1) :
    (s.past l b gap).buffer i = Buffer.empty ∧ (∀ k, k ≠ i → (s.past l b gap).buffer k = s.buffer k) ∧
      ∀ k, ((s.past l b gap).buffer k).state ≠ .burning := by
  have ring : (s.past l b gap).ring = (s.freeBuffer i).ring := ringPast_of_done (burning?_of_sole burns sole) record all
  have empty : (s.past l b gap).buffer i = Buffer.empty := by
    rw [State.buffer, ring]
    exact buffer_onBuffer_self s i fun _ => Buffer.empty
  have others : ∀ k, k ≠ i → (s.past l b gap).buffer k = s.buffer k := by
    intro k other
    rw [State.buffer, ring]
    exact buffer_onBuffer_ne s (fun _ => Buffer.empty) other.symm
  refine ⟨empty, others, fun k => ?_⟩
  by_cases same : k = i
  · rw [same, empty]
    nofun
  · rw [others k same]
    exact sole k same

theorem past_takeFull? (s : State) (l : Line) (b : HeadLabel) (gap : Bool) : (s.past l b gap).takeFull? = s.takeFull? :=
  takeFull?_of_ringPast rfl

theorem past_take (s : State) (l : Line) (b : HeadLabel) (gap : Bool) : (s.past l b gap).ring.take = s.ring.take := ringPast_take ..

end

end Sys2Proof.Machine
end

section
/-! PROOFS. A label's lines end, or its next line has no band: carried out, an underrun, spoiled, cancelled (R143 to R148, R154). -/

namespace Sys2Proof.Machine

section
variable {s : State} {l : Line} {b : HeadLabel} {rs : RunSettings} {gap : Bool}

/-- From one state to the next the line that ended at the head was handed to the watches, if it was burned (R142, R182). -/
def State.Handed (s : State) (l : Line) (b : HeadLabel) (t : State) : Prop :=
  (l.burn = none → t.ports = s.ports) ∧
    (l.burn ≠ none → ∀ p,
      ((s.port p).watch = some ⟨b.job, b.copy, b.done⟩ →
        (t.port p).watch = none ∧ Event.positionReached.isIn (t.port p).pending = true) ∧
      ((s.port p).watch ≠ some ⟨b.job, b.copy, b.done⟩ → t.port p = s.port p))

theorem handed_of_ports {t : State} (ports : t.ports = s.portsHanded l b) : s.Handed l b t := by
  have port : ∀ p, t.port p = (s.portsHanded l b)[p] := fun p => by rw [State.port, ports]
  simp only [State.Handed, port, ports]
  exact portsHanded_spec s l b

/-- The buffer of a BURNING band all of whose lines are done is free (R98). -/
theorem freed_of_ring {t : State} (ring : t.ring = s.ringPast (b.done + 1)) (last : b.done + 1 = b.length) {i : Fin 8} {x : BandRecord}
    (burning : s.burning? = some i) (record : (s.buffer i).record = some x) (all : x.first + x.count = b.length) :
    t.buffer i = Buffer.empty := by
  rw [State.buffer, ring, ringPast_of_done burning record (by omega)]
  exact buffer_onBuffer_self s i fun _ => Buffer.empty

/-! ### Carried out (R147, R148) -/

/-- The state with the label at the head burned whole and to be carried out (R146, R147). -/
def State.carriedOut (s : State) (l : Line) (b : HeadLabel) (gap : Bool) : State :=
  (s.past l b gap).onEngine fun e => { e with heads := [{ b.lineDone with out := true }] }

/-- After its last line a label burned whole is to be carried out, short of its present position (R147, R148). -/
theorem State.LinesOn.carried (way : s.LinesOn l b rs gap) (runs : s.held = false) (live : s.isCancelled b.job = false)
    (sound : b.spoiled = false) (last : b.done + 1 = b.length) (far : s.engine.hp + 1 < s.presentPosition b) :
    exec (.forwardStep gap) s = .next (s.carriedOut l b gap).afterLabel := by
  have short : (s.past l b gap).engine.hp < (s.past l b gap).presentPosition b.lineDone := by
    rw [past_hp]
    exact far
  have ends : (s.past l b gap).endsAtStep = s.carriedOut l b gap := endsAtStep_whole (b := b.lineDone) rfl last.ge sound live (.inr short)
  rw [way.steps runs, State.worked, ends,
    afterStep_label (by exact past_task way) (by simp [State.carriedOut, State.onEngine, State.burningLabel?])]

theorem carriedOut_takeFull? (s : State) (l : Line) (b : HeadLabel) (gap : Bool) : (s.carriedOut l b gap).takeFull? = s.takeFull? :=
  takeFull?_of_ringPast rfl

/-- With E > 0 a label burned whole, in PEEL mode or with no band waiting, is carried on to its present position (R147, R148). -/
theorem carriedOut_afterLabel (set : s.settings = some rs) (far : 0 < s.peelDistance) (alone : s.peels = true ∨ s.takeFull? = none) :
    (s.carriedOut l b gap).afterLabel = (s.carriedOut l b gap).onEngine fun e =>
      { e with mode := .burning, task := .carry (s.presentPosition b), line := some (e.blankLine rs) } := by
  set t := s.carriedOut l b gap with carried
  have found : t.engine.heads.find? (·.out) = some { b.lineDone with out := true } := rfl
  cases peels : s.peels with
  | true =>
    have same : t.peels = true := peels
    simp only [State.afterLabel, same, found, if_neg (show ¬ t.peelDistance = 0 from far.ne')]
    exact startBlank_eq (by exact set)
  | false =>
    have same : t.peels = false := peels
    have none : t.takeFull? = none := (carriedOut_takeFull? ..).trans (alone.resolve_left (by simp [peels]))
    simp only [State.afterLabel, same]
    exact goOn_carries (b := { b.lineDone with out := true }) rfl rfl none set

/-- In TEAR mode the engine looks for a start for a FULL band 0 that waits (R141, R147). -/
theorem carriedOut_chooses (tear : s.peels = false) {x : BandRecord} (found : s.takeFull? = some x) (first : x.band = 0)
    (live : x.void = false) :
    (s.carriedOut l b gap).afterLabel = ((s.carriedOut l b gap).onEngine (·.chooseStart s.topOffset)).startMove := by
  set t := s.carriedOut l b gap with carried
  have same : t.peels = false := tear
  have waits : t.takeFull? = some x := (carriedOut_takeFull? ..).trans found
  simp only [State.afterLabel, same]
  exact goOn_chooses waits first live

end

/-- With no usable edge the engine goes REGISTERING, and counts afresh unless it was (R141). -/
theorem chooseStart_none {e : Engine} {offset : Int} (none : e.usableEdge offset = none) :
    (e.chooseStart offset).mode = .registering ∧ (e.chooseStart offset).task = .seek ∧
      (e.chooseStart offset).feedCount = if e.mode = .registering then e.feedCount else 0 := by
  have still : (e.prune offset).usableEdge offset = Option.none := (usableEdge_prune e offset).trans none
  simp only [Engine.chooseStart, still, true_and]
  rfl

/-- With a usable edge its start is chosen (R141). -/
theorem chooseStart_some {e : Engine} {offset : Int} {y : Edge} (found : e.usableEdge offset = some y) :
    (e.chooseStart offset).mode = .burning ∧ (e.chooseStart offset).task = .approach (y.pos + offset) y.pos := by
  have still : (e.prune offset).usableEdge offset = some y := (usableEdge_prune e offset).trans found
  simp only [Engine.chooseStart, still, and_self]

/-- A choice that leaves the engine short of a start is followed by a line fed unburned (R134, R141). -/
theorem startMove_chosen {s : State} {rs : RunSettings} (set : s.settings = some rs) {offset : Int}
    (task : (s.engine.chooseStart offset).task = .seek ∨
      ∃ start edge, (s.engine.chooseStart offset).task = .approach start edge ∧ s.engine.hp < start) :
    ∃ e f : Engine, (s.onEngine (·.chooseStart offset)).startMove = { s with engine := e } ∧ e.heads = s.engine.heads ∧
      e.hp = s.engine.hp ∧ e.line = some (f.blankLine rs) ∧ e.mode = (s.engine.chooseStart offset).mode ∧
      e.task = (s.engine.chooseStart offset).task ∧ e.feedCount = (s.engine.chooseStart offset).feedCount := by
  obtain ⟨hp, heads⟩ := chooseStart_kept s.engine offset
  have moves : (s.onEngine (·.chooseStart offset)).startMove = (s.onEngine (·.chooseStart offset)).startBlank := by
    refine startMove_ahead (task.imp_right ?_)
    rintro ⟨start, edge, approach, ahead⟩
    exact ⟨start, edge, approach, hp.trans_lt ahead⟩
  rw [moves, startBlank_eq (by exact set)]
  exact ⟨_, _, rfl, heads, hp, rfl, rfl, rfl, rfl⟩

/-! ### An underrun (R143, R144) -/

section
variable {s : State} {b : HeadLabel} {rs : RunSettings}

/-- With no band for its next line a label has an underrun (R143, R144). -/
theorem startLabelLine_underrun (sound : b.spoiled = false) (live : s.isCancelled b.job = false)
    (none : s.burningHas b.job b.copy b.done = false) (lacks : s.takeHas b.job b.copy b.done = false) :
    s.startLabelLine b = s.underrun b := by
  simp only [State.startLabelLine, sound, none, lacks, live, Bool.not_false, Bool.and_false, Bool.false_eq_true, if_false]

/-- Under PAUSE an underrun pauses the engine and is counted (R143). -/
theorem underrun_pause (set : s.settings = some rs) (pause : rs.underrun = .pause) : s.underrun b =
    (s.onLabel b.job b.copy fun l => { l with pauses := min 255 (l.pauses + 1) }).onEngine fun e =>
      { e.motorStop with mode := .paused } := by
  simp only [State.underrun, set, Option.map_some, pause]

/-- Under REDO an underrun spoils the one label at the head, which is fed on (R144). -/
theorem underrun_redo (set : s.settings = some rs) (redo : rs.underrun = .redo) (heads : s.engine.heads = [b]) : s.underrun b =
    s.onEngine fun e => { e with heads := [{ b with spoiled := true }], line := some (e.blankLine rs) } := by
  have spoils : s.onHead b.job b.copy (fun h => { h with spoiled := true }) =
      s.onEngine fun e => { e with heads := [{ b with spoiled := true }] } := by
    simp only [State.onHead, State.onEngine, heads, List.map_cons, List.map_nil, and_self, if_true]
  simp only [State.underrun, set, Option.map_some, redo, spoils]
  exact startBlank_eq (by exact set)

/-- A stopped motor leaves no dot in the line history (R126). -/
theorem motorStop_history (e : Engine) : ∀ x ∈ e.motorStop.history1 ++ e.motorStop.history2, x = false := by
  intro x mem
  simp only [Engine.motorStop, List.mem_append, List.mem_replicate] at mem
  obtain ⟨-, no⟩ | ⟨-, no⟩ := mem <;> exact no

/-- A cancelled label's next line is fed unburned; its band at the take position is taken in its turn (R145). -/
theorem startLabelLine_unburned (set : s.settings = some rs) (sound : b.spoiled = false) (cancelled : s.isCancelled b.job = true) :
    s.startLabelLine b = (if !s.burningHas b.job b.copy b.done && s.takeHas b.job b.copy b.done then s.takeBand else s).onEngine
      fun e => { e with line := some (e.blankLine rs) } := by
  set t := if !s.burningHas b.job b.copy b.done && s.takeHas b.job b.copy b.done then s.takeBand else s with taken
  have flag : t.isCancelled b.job = true := by
    rw [taken]
    split <;> exact cancelled
  have setNow : t.settings = some rs := by
    rw [taken]
    split <;> exact set
  simp only [State.startLabelLine, sound, Bool.false_eq_true, if_false, ← taken, flag, if_true, startBlank_eq setNow]

/-- A BURNING band whose lines are all done, or none, holds no later line (R98). -/
theorem burningHas_of_past {y : Nat} {job copy : Nat}
    (past : ∀ i x, (s.buffer i).state = .burning → (s.buffer i).record = some x → x.first + x.count = y) :
    s.burningHas job copy y = false := by
  refine Bool.eq_false_iff.mpr fun has => ?_
  obtain ⟨i, burning, holds⟩ := (Option.any_eq_true ..).mp has
  obtain ⟨x, record, line⟩ := (Option.any_eq_true ..).mp holds
  have all := past i x (burning_of_burning? burning) record
  simp only [BandRecord.hasLine, Bool.and_eq_true, decide_eq_true_eq] at line
  omega

end

/-! ### The label ends (R144, R145) -/

section
variable {s : State} {l : Line} {b : HeadLabel} {rs : RunSettings} {gap : Bool}

/-- At the end of its last line a spoiled label ends, the ring is flushed, and the engine stops (R144, R147). -/
theorem State.LinesOn.spoiled (way : s.LinesOn l b rs gap) (runs : s.held = false) (spoiled : b.spoiled = true)
    (last : b.done + 1 = b.length) : exec (.forwardStep gap) s = .next
      ((((s.past l b gap).endAtHead b.lineDone (if s.isCancelled b.job then .voided else .spoiled)).flush
        (if s.isCancelled b.job then none else s.redoEntry? b.job b.copy)).onEngine fun e =>
          { e.motorStop with mode := .stopped, task := .idle }) := by
  set o : LabelOutcome := if s.isCancelled b.job then .voided else .spoiled
  set first := if s.isCancelled b.job then none else s.redoEntry? b.job b.copy
  have frame := endAtHead_sole (s := s.past l b gap) (b := b.lineDone) rfl o
  set t := (s.past l b gap).endAtHead b.lineDone o with ended
  have ends : (s.past l b gap).endsAtStep = t.flush first := endsAtStep_spoiled (b := b.lineDone) rfl way.out last.ge spoiled
  have heads : (t.flush first).engine.heads = [] := by rw [flush_engine, frame]
  have task : (t.flush first).engine.task = .lines := by rw [flush_engine, frame]; exact past_task way
  have free : ∀ i, ((t.flush first).buffer i).state = .free := fun i => by
    rw [State.buffer, flush_frame]
    exact congrArg Buffer.state (Vector.getElem_replicate ..)
  rw [way.steps runs, State.worked, ends, afterStep_ended task heads, goOn_of_nothing heads (takeFull?_of_free free)]

/-- At the end of its last line a cancelled label ends VOIDED, and the engine goes on (R145). -/
theorem State.LinesOn.cancelled (way : s.LinesOn l b rs gap) (runs : s.held = false) (sound : b.spoiled = false)
    (cancelled : s.isCancelled b.job = true) (last : b.done + 1 = b.length) :
    exec (.forwardStep gap) s = .next ((s.past l b gap).endAtHead b.lineDone .voided).goOn := by
  have frame := endAtHead_sole (s := s.past l b gap) (b := b.lineDone) rfl .voided
  have ends : (s.past l b gap).endsAtStep = (s.past l b gap).endAtHead b.lineDone .voided :=
    endsAtStep_cancelled (b := b.lineDone) rfl way.out last.ge sound cancelled
  rw [way.steps runs, State.worked, ends, afterStep_ended (by rw [frame]; exact past_task way) (by rw [frame])]

end

/-! ### What going on leaves of the queue and the reports -/

/-- The skipping of VOID bands reports nothing, and brings no job into the queue (R72, R113). -/
theorem skipVoid_kept (s : State) : (∀ q, (s.skipVoid.port q).reports = (s.port q).reports) ∧
    ∀ n k, s.skipVoid.job? n = some k → s.job? n = some k := by
  have skips : ∀ (m : Nat) (s : State), (∀ q, ((skipVoidFuel m s).port q).reports = (s.port q).reports) ∧
      ∀ n k, (skipVoidFuel m s).job? n = some k → s.job? n = some k := by
    intro m
    induction m with
    | zero => exact fun s => ⟨fun _ => rfl, fun _ _ => id⟩
    | succ m ih =>
      intro s
      unfold skipVoidFuel
      split
      · split
        · obtain ⟨reports, job⟩ := ih s.skipBand.settle
          exact ⟨fun q => (reports q).trans (settle_reports ..), fun n k found => job?_of_settle (s := s.skipBand) (job n k found)⟩
        · exact ⟨fun _ => rfl, fun _ _ => id⟩
      · exact ⟨fun _ => rfl, fun _ _ => id⟩
  exact skips 8 s

theorem goOn_ports_queue (s : State) : s.goOn.ports = s.skipVoid.ports ∧ s.goOn.queue = s.skipVoid.queue := by
  obtain ⟨e, look, -, -⟩ := lookForWork_eq s
  rw [State.goOn, startMove_frame, look]
  exact ⟨rfl, rfl⟩

/-- Going on reports nothing (R76, R113). -/
theorem goOn_reports (s : State) (q : Port) : (s.goOn.port q).reports = (s.port q).reports := by
  rw [State.port, (goOn_ports_queue s).1]
  exact (skipVoid_kept s).1 q

/-- Going on brings no job into the queue (R72, R113). -/
theorem job?_of_goOn {s : State} {n : Nat} {k : Job} (found : s.goOn.job? n = some k) : s.job? n = some k := by
  rw [State.job?, (goOn_ports_queue s).2] at found
  exact (skipVoid_kept s).2 n k found

end Sys2Proof.Machine
end

section
/-! PROOFS. The lines of a label, first to last, and its ends: O50 (R141 to R148). -/

namespace Sys2Proof.Machine

section
variable {s : State} {l : Line} {b : HeadLabel} {rs : RunSettings} {gap : Bool} {h : HeadProfile} {j : Job} {f : Form} {i : Fin 8}
  {x : BandRecord}

/-! ### The next line from its band (R142) -/

/-- A label under way, neither cancelled nor spoiled, has lines left (R142). -/
structure State.BurnsOn (s : State) (l : Line) (b : HeadLabel) (rs : RunSettings) (gap : Bool) (h : HeadProfile) (j : Job) (f : Form) : Prop
    extends s.LinesOn l b rs gap where
  runs    : s.held = false
  profile : s.profile = some h
  queued  : s.job? b.job = some j
  live    : j.cancelled = false
  active  : s.activeForm j.form = some f
  sound   : b.spoiled = false
  left    : b.done + 1 < b.length

/-- The burn bits of a band's line under a form's print planes (R110, R142). -/
def Buffer.bitsOf (c : Buffer) (f : Form) (y : Nat) : List Bool := (c.cells.getD y []).map (Cell.burns f.printPlanes)

/-- The next line burned from the BURNING band (R142). -/
theorem State.BurnsOn.burnsNext (way : s.BurnsOn l b rs gap h j f) (burning : s.burning? = some i) (record : (s.buffer i).record = some x)
    (own : x.job = b.job ∧ x.copy = b.copy) (begun : x.first ≤ b.done + 1) (more : b.done + 1 < x.first + x.count) :
    exec (.forwardStep gap) s = .next ((s.past l b gap).onEngine fun e =>
      { e with line := some (e.burnLine h rs (b.done + 1) ((s.buffer i).bitsOf f (b.done + 1 - x.first))) }) := by
  have ring : (s.past l b gap).ring = s.ring := ringPast_of_left burning record more
  have buffer : ∀ k, (s.past l b gap).buffer k = s.buffer k := fun k => by rw [State.buffer, ring]; rfl
  have still : (s.past l b gap).burning? = some i := by
    rw [← burning]
    simp only [State.burning?, buffer]
  have recordNow : ((s.past l b gap).buffer i).record = some x := (congrArg Buffer.record (buffer i)).trans record
  have bits := lineBits_eq (n := b.job) (j := j) (f := f) recordNow way.queued way.active (b.done + 1)
  rw [buffer] at bits
  have starts := startLabelLine_fromBurning (b := b.lineDone) way.sound
    (by rw [past_isCancelled]; simp [State.isCancelled, HeadLabel.lineDone, way.queued, way.live]) still recordNow
    (BandRecord.hasLine_of own begun more)
  rw [way.goes way.runs way.left, starts, startBurn_eq (by exact way.set) (by exact way.profile)]
  exact congrArg (fun bits => Host.Outcome.next ((s.past l b gap).onEngine fun e =>
    { e with line := some (e.burnLine h rs (b.done + 1) bits) })) bits

/-- Behind the last line of its band a label's next line burns from the FULL band then taken, and the buffer behind is free (R98, R142). -/
theorem State.BurnsOn.takesNext (way : s.BurnsOn l b rs gap h j f) (burning : (s.buffer i).state = .burning)
    (sole : ∀ k, k ≠ i → (s.buffer k).state ≠ .burning) (record : (s.buffer i).record = some x) (all : x.first + x.count ≤ b.done + 1)
    {y : BandRecord} (found : s.takeFull? = some y) (own : y.job = b.job ∧ y.copy = b.copy) (begun : y.first ≤ b.done + 1)
    (more : b.done + 1 < y.first + y.count) :
    ∃ t : State, exec (.forwardStep gap) s = .next t ∧ s.Handed l b t ∧
      t.engine = { (s.past l b gap).engine with line := some ((s.past l b gap).engine.burnLine h rs (b.done + 1)
        ((s.buffer s.ring.take).bitsOf f (b.done + 1 - y.first))) } ∧
      t.buffer i = Buffer.empty ∧ (t.buffer s.ring.take).state = .burning ∧ (t.buffer s.ring.take).record = some y ∧
      t.ring.take = s.ring.take + 1 ∧ (∀ k, k ≠ i → k ≠ s.ring.take → t.buffer k = s.buffer k) ∧
      t = { s with engine := t.engine, ring := t.ring, ports := t.ports } := by
  obtain ⟨full, filled⟩ := takeFull?_eq_some.mp found
  obtain ⟨empty, others, idle⟩ := past_buffers (l := l) (gap := gap) burning sole record all
  have apart : s.ring.take ≠ i := fun same => by rw [same, burning] at full; cases full
  have here := past_take s l b gap
  have bits : ((s.past l b gap).buffer (s.past l b gap).ring.take).bitsOf f (b.done + 1 - y.first) =
      (s.buffer s.ring.take).bitsOf f (b.done + 1 - y.first) := by rw [here, others _ apart]
  have starts := startLabelLine_taken (s := s.past l b gap) (b := b.lineDone) way.set way.profile way.sound way.queued way.live way.active
    idle ((past_takeFull? ..).trans found) (BandRecord.hasLine_of own begun more) bits
  obtain ⟨t, eq⟩ : ∃ t, t = (s.past l b gap).takeBand.onEngine fun e =>
    { e with line := some (e.burnLine h rs (b.done + 1) ((s.buffer s.ring.take).bitsOf f (b.done + 1 - y.first))) } := ⟨_, rfl⟩
  obtain ⟨taken, held, take, kept⟩ := taken_ring (s := s.past l b gap) (t := t) (by rw [eq]; rfl)
  rw [here] at taken held take kept
  refine ⟨t, (way.goes way.runs way.left).trans (congrArg _ (starts.trans eq.symm)), handed_of_ports (by rw [eq]; rfl),
    by rw [eq]; rfl, ?_, taken, ?_, take, ?_, ?_⟩
  · rw [kept i apart.symm, empty]
  · rw [held, others _ apart, filled]
  · intro k other away
    rw [kept k away, others k other]
  · rw [eq]
    exact takenLine_frame s ..

/-- What the burning of the next line leaves of the engine: line y + 1 after y, planned from the bits, the class times and the history
(R126, R129, R133, R142). -/
theorem State.LinesOn.burning_of_line (way : s.LinesOn l b rs gap) (profile : s.profile = some h) {t : State} {bits : List Bool}
    (engine : t.engine = { (s.past l b gap).engine with line := some ((s.past l b gap).engine.burnLine h rs (b.done + 1) bits) }) :
    t.engine.mode = .burning ∧ t.engine.task = .lines ∧ t.engine.heads = [{ b with done := b.done + 1 }] ∧
      t.engine.hp = s.engine.hp + 1 ∧
      ∃ m : Line, t.engine.line = some m ∧ m.burn = some { bits := bits, times := classTimes rs s.engine.temperature s.engine.voltage } ∧
        m.phases = phasePlan h rs (classTimes rs s.engine.temperature s.engine.voltage)
          (classOf (l.burn.elim (List.replicate h.dots false) Burn.bits) s.engine.history1) (b.done + 1) bits ∧
        m.required = requiredPeriod m.phases ∧
        m.period = max m.required (max (minimumPeriod rs.speed s.engine.hot) (rampFloor (some l.period))) := by
  have line : (s.past l b gap).engine.burnLine h rs (b.done + 1) bits = _ := motorSteps_burnLine (rs := rs) profile l gap (b.done + 1) bits
  rw [engine, line]
  exact ⟨past_mode way, past_task way, rfl, past_hp s l b gap, _, rfl, rfl, rfl, rfl, rfl⟩

/-! ### The ends (R144, R145) -/

/-- A flush reports nothing (R114). -/
theorem flush_reports (s : State) (first : Option RedoEntry) (q : Port) : ((s.flush first).port q).reports = (s.port q).reports :=
  settle_reports ..

/-- A label that ends VOIDED leaves its job as it was, while any label of it is in flight (R72, R73). -/
theorem endAtHead_voided_job? {lr : LabelRecord} (queued : s.job? b.job = some j) (found : s.label? b.job b.copy = some lr)
    (flight : (s.endAtHead b .voided).jobInFlight b.job = true) : (s.endAtHead b .voided).job? b.job = some j := by
  have ended := endLabel_voided queued found (s.mismatch b)
  have flies : (s.endLabel b.job b.copy .voided (s.mismatch b)).jobInFlight b.job = true := flight
  have same : (s.endLabel b.job b.copy .voided (s.mismatch b)).job? b.job = some j := by
    rw [ended] at flies ⊢
    rw [settle_job? flies, reported_job?, queued]
  exact same

/-- A label that ends VOIDED counts no copy as completed (R73). -/
theorem endAtHead_voided_completed {k : Job} (queued : s.job? b.job = some j) (still : (s.endAtHead b .voided).job? b.job = some k) :
    k = j := by
  obtain ⟨m, before, same⟩ := endLabel_job? (mismatch := s.mismatch b) still
  obtain rfl := Option.some.inj (before.symm.trans queued)
  split at same
  · exact (Option.some.inj same).symm
  · exact same.symm

/-- A cancelled job goes with the last of its labels and redo entries (R72, R73). -/
theorem endAtHead_voided_job?_none {lr : LabelRecord} (queued : s.job? b.job = some j) (cancelled : j.cancelled = true)
    (found : s.label? b.job b.copy = some lr) (sole : ∀ y ∈ s.labels, y.job = b.job → y.copy = b.copy)
    (redo : ∀ y ∈ s.redo, y.job ≠ b.job) : (s.endAtHead b .voided).job? b.job = none := by
  refine Option.eq_none_iff_forall_ne_some.mpr fun k still => ?_
  have fly : (s.endAtHead b .voided).cancelledFly := by
    have settled := settle_cancelledFly ((s.placeCompletion (completionOf j lr .voided (s.mismatch b))).labelOff b.job b.copy)
    rw [← endLabel_voided queued found] at settled
    exact settled
  obtain rfl := endAtHead_voided_completed queued still
  have number := job?_number queued
  have flight := fly k (List.mem_of_find?_eq_some still) cancelled
  rw [number, jobInFlight_iff] at flight
  obtain ⟨y, mem, own⟩ | ⟨y, mem, own⟩ := flight
  · have left := List.mem_filter.mp ((endAtHead_labels s b .voided).subset mem)
    simp [own, sole y left.1 own] at left
  · rw [endAtHead_redo] at mem
    exact redo y mem own

end

end Sys2Proof.Machine
end

section
/-! PROOFS. O50, its clauses assembled (R141 to R148). -/

namespace Sys2Proof.Machine

section
variable {s : State} {l : Line} {b : HeadLabel} {rs : RunSettings} {gap : Bool} {h : HeadProfile} {j : Job} {lr : LabelRecord}

/-! ### Carried out (R147, R148) -/

/-- From one state to the next a label burned whole has become one carried out, on a line fed unburned (R142, R147). -/
def State.Carries (s : State) (l : Line) (b : HeadLabel) (t : State) : Prop :=
  s.Handed l b t ∧ t.engine.heads = [{ b with done := b.done + 1, out := true }] ∧ t.engine.hp = s.engine.hp + 1 ∧
    (∃ m, t.engine.line = some m ∧ m.burn = none) ∧
    (∀ i r, s.burning? = some i → (s.buffer i).record = some r → r.first + r.count = b.length → t.buffer i = Buffer.empty) ∧
    t = { s with engine := t.engine, ring := t.ring, ports := t.ports }

theorem carries_of_engine (last : b.done + 1 = b.length) {e f : Engine} (heads : e.heads = (s.carriedOut l b gap).engine.heads)
    (hp : e.hp = (s.carriedOut l b gap).engine.hp) (line : e.line = some (f.blankLine rs)) :
    s.Carries l b { s.carriedOut l b gap with engine := e } :=
  ⟨handed_of_ports rfl, heads, hp.trans (past_hp s l b gap), ⟨_, line, rfl⟩, fun _ _ burning record all =>
    freed_of_ring rfl last burning record all, rfl⟩

/-- A label burned whole, with E > 0 and short of its present position (R146, R147). -/
structure State.WholeOn (s : State) (l : Line) (b : HeadLabel) (rs : RunSettings) (gap : Bool) (h : HeadProfile) : Prop
    extends s.LinesOn l b rs gap where
  runs    : s.held = false
  profile : s.profile = some h
  live    : s.isCancelled b.job = false
  sound   : b.spoiled = false
  last    : b.done + 1 = b.length
  peel    : 0 < h.peel
  far     : s.engine.hp + 1 < b.start + b.length + h.peel

theorem presentPosition_eq (profile : s.profile = some h) : s.presentPosition b = b.start + b.length + h.peel := by
  rw [State.presentPosition, State.peelDistance, profile]
  rfl

theorem State.WholeOn.steps (way : s.WholeOn l b rs gap h) : exec (.forwardStep gap) s = .next (s.carriedOut l b gap).afterLabel :=
  way.carried way.runs way.live way.sound way.last (by rw [presentPosition_eq way.profile]; exact way.far)

/-- In PEEL mode, or with no band waiting, the label is carried on to its present position (R147, R148). -/
theorem State.WholeOn.carries (way : s.WholeOn l b rs gap h) (alone : rs.present = .peel ∨ s.takeFull? = none) :
    ∃ t : State, exec (.forwardStep gap) s = .next t ∧ s.Carries l b t ∧ t.engine.mode = .burning ∧
      t.engine.task = .carry (b.start + b.length + h.peel) := by
  have carries := carriedOut_afterLabel (l := l) (b := b) (gap := gap) way.set (by rw [State.peelDistance, way.profile]; exact way.peel)
    (alone.imp_left fun mode => by rw [peels_of_set way.set, mode]; rfl)
  rw [presentPosition_eq way.profile] at carries
  exact ⟨_, way.steps.trans (congrArg _ carries), carries_of_engine way.last rfl rfl rfl, rfl, rfl⟩

/-- The start after a label carried out is chosen by the edges the step's reading leaves (R141; log 17). -/
theorem carriedOut_usableEdge (s : State) (l : Line) (b : HeadLabel) (gap : Bool) (offset : Int) :
    (s.carriedOut l b gap).engine.usableEdge offset = (s.stepRead gap).usableEdge offset := motorSteps_usableEdge s l gap offset

theorem State.WholeOn.chooses (way : s.WholeOn l b rs gap h) {x : BandRecord} (tear : rs.present = .tear) (found : s.takeFull? = some x)
    (first : x.band = 0) (live : x.void = false) : exec (.forwardStep gap) s =
      .next ((s.carriedOut l b gap).onEngine (·.chooseStart rs.topOffset)).startMove := by
  have offset : s.topOffset = rs.topOffset := by
    rw [State.topOffset, way.set]
    rfl
  rw [way.steps, carriedOut_chooses (by rw [peels_of_set way.set, tear]; rfl) found first live, offset]

/-- In TEAR mode, with a FULL band 0 waiting, the label is carried on towards the usable edge's start (R141, R147). -/
theorem State.WholeOn.approaches (way : s.WholeOn l b rs gap h) {x : BandRecord} (tear : rs.present = .tear) (found : s.takeFull? = some x)
    (first : x.band = 0) (live : x.void = false) {y : Edge} (usable : (s.stepRead gap).usableEdge rs.topOffset = some y)
    (ahead : (s.stepRead gap).hp < y.pos + rs.topOffset) :
    ∃ t : State, exec (.forwardStep gap) s = .next t ∧ s.Carries l b t ∧ t.engine.mode = .burning ∧
      t.engine.task = .approach (y.pos + rs.topOffset) y.pos := by
  obtain ⟨burns, approach⟩ := chooseStart_some ((carriedOut_usableEdge s l b gap _).trans usable)
  have short : (s.carriedOut l b gap).engine.hp < y.pos + rs.topOffset :=
    ((motorSteps_hp s l gap).trans (stepRead_hp s gap).symm).trans_lt ahead
  obtain ⟨e, f, moves, heads, hp, line, mode, task, -⟩ :=
    startMove_chosen (s := s.carriedOut l b gap) way.set (.inr ⟨_, _, approach, short⟩)
  exact ⟨_, (way.chooses tear found first live).trans (congrArg _ moves), carries_of_engine way.last heads hp line, mode.trans burns,
    task.trans approach⟩

/-- In TEAR mode, with a FULL band 0 waiting and no usable edge, the engine goes REGISTERING for it (R141, R147). -/
theorem State.WholeOn.seeks (way : s.WholeOn l b rs gap h) {x : BandRecord} (tear : rs.present = .tear) (found : s.takeFull? = some x)
    (first : x.band = 0) (live : x.void = false) (lost : (s.stepRead gap).usableEdge rs.topOffset = none) :
    ∃ t : State, exec (.forwardStep gap) s = .next t ∧ s.Carries l b t ∧ t.engine.mode = .registering ∧ t.engine.task = .seek ∧
      t.engine.feedCount = 0 := by
  obtain ⟨registers, seek, count⟩ := chooseStart_none ((carriedOut_usableEdge s l b gap _).trans lost)
  obtain ⟨e, f, moves, heads, hp, line, mode, task, feeds⟩ := startMove_chosen (s := s.carriedOut l b gap) way.set (.inl seek)
  have burns : (s.carriedOut l b gap).engine.mode = .burning := past_mode way.toLinesOn
  exact ⟨_, (way.chooses tear found first live).trans (congrArg _ moves), carries_of_engine way.last heads hp line, mode.trans registers,
    task.trans seek, feeds.trans (count.trans (if_neg (by rw [burns]; nofun)))⟩

/-! ### An underrun (R143, R144) -/

/-- With its band done and no other for its next line at the take position a label has an underrun (R143). -/
theorem State.LinesOn.underruns (way : s.LinesOn l b rs gap) (runs : s.held = false) (live : s.isCancelled b.job = false)
    (sound : b.spoiled = false) (left : b.done + 1 < b.length) (idle : ∀ k, ((s.past l b gap).buffer k).state ≠ .burning)
    (lacks : s.takeHas b.job b.copy (b.done + 1) = false) :
    exec (.forwardStep gap) s = .next ((s.past l b gap).underrun b.lineDone) := by
  have none : (s.past l b gap).burningHas b.job b.copy (b.done + 1) = false := by
    rw [State.burningHas, burning?_eq_none.mpr idle]
    rfl
  have waits : (s.past l b gap).takeHas b.job b.copy (b.done + 1) = false := by
    rw [State.takeHas, past_takeFull?]
    exact lacks
  rw [way.goes runs left, startLabelLine_underrun (s := s.past l b gap) (b := b.lineDone) sound live none waits]

/-! ### The ends (R144, R145) -/

/-- A spoiled label ends with its report, and the ring is flushed; the engine stops with nothing at the head (R114, R144). -/
theorem State.LinesOn.spoiled_ends (way : s.LinesOn l b rs gap) (runs : s.held = false) (spoiled : b.spoiled = true)
    (last : b.done + 1 = b.length) (queued : s.job? b.job = some j) (found : s.label? b.job b.copy = some lr) {o : LabelOutcome}
    (outcome : (if s.isCancelled b.job then .voided else .spoiled) = o) {first : Option RedoEntry}
    (entry : (if s.isCancelled b.job then none else s.redoEntry? b.job b.copy) = first) :
    ∃ (t : State) (c : Completion), exec (.forwardStep gap) s = .next t ∧ t.engine.mode = .stopped ∧ t.engine.heads = [] ∧
      t.ring = Ring.empty ∧ t.hand = none ∧
      t.redo = first.toList ++ (((s.past l b gap).endAtHead b.lineDone o).laterEntries first ++ s.redo) ∧
      (t.port j.origin).reports.getLast? = some (.completion c) ∧ c.job = j.number ∧ c.copy = lr.copy ∧ c.outcome = o ∧
      c.values = lr.values ∧ c.pauses = lr.pauses := by
  have steps := way.spoiled runs spoiled last
  rw [outcome, entry] at steps
  have frame := endAtHead_sole (s := s.past l b gap) (b := b.lineDone) rfl o
  have reports := endAtHead_reports (s := s.past l b gap) (b := b.lineDone) queued found o
  set u := (s.past l b gap).endAtHead b.lineDone o with ended
  have redo : u.redo = s.redo := by rw [frame]; rfl
  have flushed := flush_frame u first
  refine ⟨_, completionOf j lr o ((s.past l b gap).mismatch b.lineDone), steps, rfl, ?_, ?_, ?_, ?_, ?_, rfl, rfl, rfl, rfl, rfl⟩
  · show (u.flush first).engine.heads = []
    rw [flush_engine, frame]
  · show (u.flush first).ring = Ring.empty
    rw [flushed]
  · show (u.flush first).hand = none
    rw [flushed]
  · show (u.flush first).redo = _
    rw [flushed, flushEntries_eq, redo, List.append_assoc]
  · exact (congrArg List.getLast? (flush_reports u first j.origin)).trans reports

/-- The flush behind a label that ended VOIDED makes no redo entry of its cancelled job (R115; log 28). -/
theorem laterEntries_of_voided (queued : s.job? b.job = some j) (cancelled : j.cancelled = true)
    (found : s.label? b.job b.copy = some lr) {first : Option RedoEntry} {x : RedoEntry}
    (later : x ∈ (s.endAtHead b .voided).laterEntries first) : x.job ≠ b.job := by
  intro own
  obtain ⟨-, live, -, -, y, label, -⟩ := mem_laterEntries.mp later
  rw [own] at live label
  rw [State.isCancelled, endAtHead_voided_job? queued found (jobInFlight_of_label? label), Option.any_some, cancelled] at live
  cases live

/-- A cancelled label ends VOIDED at its last line with its report; no copy counts as completed, the job leaves with its last label in
flight, and with an empty ring the engine stops (R73, R145, R147). -/
theorem State.LinesOn.cancelled_ends (way : s.LinesOn l b rs gap) (runs : s.held = false) (sound : b.spoiled = false)
    (queued : s.job? b.job = some j) (cancelled : j.cancelled = true) (last : b.done + 1 = b.length)
    (found : s.label? b.job b.copy = some lr) :
    ∃ (t : State) (c : Completion), exec (.forwardStep gap) s = .next t ∧ t.label? b.job b.copy = none ∧
      (t.port j.origin).reports.getLast? = some (.completion c) ∧ c.job = j.number ∧ c.copy = lr.copy ∧ c.outcome = .voided ∧
      c.values = lr.values ∧ c.pauses = lr.pauses ∧ (∀ k, t.job? b.job = some k → k.completed = j.completed) ∧
      ((∀ x ∈ s.labels, x.job = b.job → x.copy = b.copy) → (∀ x ∈ s.redo, x.job ≠ b.job) → t.job? b.job = none) ∧
      ((∀ i, (s.buffer i).state = .free) → t.engine.mode = .stopped ∧ t.engine.heads = [] ∧ t.engine.line = none) := by
  have flag : s.isCancelled b.job = true := by simp [State.isCancelled, queued, cancelled]
  have steps := way.cancelled runs sound flag last
  have frame := endAtHead_sole (s := s.past l b gap) (b := b.lineDone) rfl .voided
  have report := endAtHead_reports (s := s.past l b gap) (b := b.lineDone) queued found .voided
  set u := (s.past l b gap).endAtHead b.lineDone .voided with ended
  refine ⟨u.goOn, completionOf j lr .voided ((s.past l b gap).mismatch b.lineDone), steps, ?_, ?_, rfl, rfl, rfl, rfl, rfl,
    fun k still => ?_, fun sole redo => ?_, fun free => ?_⟩
  · refine label?_eq_none.mpr fun y mem own => ?_
    obtain ⟨z, among, same⟩ := (yields_goOn u).labels y mem
    have left := (List.mem_filter.mp ((endAtHead_labels (s.past l b gap) b.lineDone .voided).subset among)).2
    simp [HeadLabel.lineDone, same, own] at left
  · rw [goOn_reports]
    exact report
  · rw [endAtHead_voided_completed (s := s.past l b gap) (b := b.lineDone) queued (job?_of_goOn still)]
  · refine Option.eq_none_iff_forall_ne_some.mpr fun k still => ?_
    have gone := endAtHead_voided_job?_none (s := s.past l b gap) (b := b.lineDone) queued cancelled found sole redo
    exact absurd ((job?_of_goOn still).symm.trans gone) (by simp)
  · rw [goOn_of_nothing (by rw [frame]) (takeFull?_of_free fun i => ?_)]
    · exact ⟨rfl, by rw [frame]; rfl, rfl⟩
    · have ring : u.ring = s.ring := by
        rw [frame]
        exact ringPast_of_none (burning?_eq_none.mpr fun k burns => by rw [free k] at burns; cases burns) _
      rw [State.buffer, ring]
      exact free i

/-- Lines left, a cancelled label is fed on unburned; its band at the take position is taken in its turn (R145). -/
theorem State.LinesOn.cancelled_goes (way : s.LinesOn l b rs gap) (runs : s.held = false) (sound : b.spoiled = false)
    (cancelled : s.isCancelled b.job = true) (left : b.done + 1 < b.length) :
    ∃ (t : State) (m : Line), exec (.forwardStep gap) s = .next t ∧ t.engine.mode = .burning ∧ t.engine.line = some m ∧ m.burn = none ∧
      t.engine.heads = [{ b with done := b.done + 1 }] ∧ t = { s with engine := t.engine, ring := t.ring, ports := t.ports } ∧
      (∀ r, s.takeFull? = some r → r.job = b.job → r.copy = b.copy → r.first ≤ b.done + 1 → b.done + 1 < r.first + r.count →
        (∀ i x, (s.buffer i).state = .burning → (s.buffer i).record = some x → x.first + x.count = b.done + 1) →
        (t.buffer s.ring.take).state = .burning ∧ t.ring.take = s.ring.take + 1) := by
  have steps := way.goes runs left
  rw [startLabelLine_unburned (s := s.past l b gap) (b := b.lineDone) way.set sound cancelled] at steps
  by_cases takes : (!(s.past l b gap).burningHas b.job b.copy (b.done + 1) && (s.past l b gap).takeHas b.job b.copy (b.done + 1)) = true
  · rw [if_pos (by exact takes)] at steps
    obtain ⟨t, eq⟩ : ∃ t, t = (s.past l b gap).takeBand.onEngine fun e => { e with line := some (e.blankLine rs) } := ⟨_, rfl⟩
    rw [← eq] at steps
    obtain ⟨taken, -, take, -⟩ := taken_ring (s := s.past l b gap) (t := t) (by rw [eq]; rfl)
    rw [past_take] at taken take
    refine ⟨t, _, steps, ?_, by rw [eq]; rfl, rfl, by rw [eq]; rfl, ?_, fun _ _ _ _ _ _ _ => ⟨taken, take⟩⟩
    · rw [eq]
      exact past_mode way
    · rw [eq]
      exact takenLine_frame s ..
  · rw [if_neg (by exact takes)] at steps
    refine ⟨_, _, steps, past_mode way, rfl, rfl, rfl, rfl, fun r found job copy begun more behind => absurd ?_ takes⟩
    have none : (s.past l b gap).burningHas b.job b.copy (b.done + 1) = false := by
      refine burningHas_of_past fun i x burns record => ?_
      obtain same | ⟨-, freed⟩ := ringPast_buffer s (b.done + 1) i
      · have kept : (s.past l b gap).buffer i = s.buffer i := same
        rw [kept] at burns record
        exact behind i x burns record
      · have empty : (s.past l b gap).buffer i = Buffer.empty := freed
        rw [empty] at burns
        cases burns
    have has : (s.past l b gap).takeHas b.job b.copy (b.done + 1) = true := by
      rw [State.takeHas, past_takeFull?, found, Option.any_some]
      exact BandRecord.hasLine_of ⟨job, copy⟩ begun more
    rw [none, has]
    rfl

end

/-- Settles O50, clause by clause: line 0; the next line from the BURNING band and from the next; carried out; an underrun under either
policy; spoiled, spoiled and cancelled; cancelled with lines left and at the last. -/
theorem burningBeginsAtTheChosenStart : Obligations.BurningBeginsAtTheChosenStart := by
  refine ⟨?start, fun s gap l b h rs runs mode line task heads out profile set short none => ?lines⟩
  case start =>
    intro s gap l start edge x j f h rs runs mode line blank task begin heads profile set short found zero holds live none queued stays active
    subst begin
    have way : s.Moves l rs gap := ⟨set, .inr mode, line, by rw [stepRead_eq set profile]; exact short⟩
    obtain ⟨t, steps, ring, engine, frame⟩ := way.burnsFirst runs task heads profile found zero holds none queued stays active
    obtain ⟨taken, -, take, others⟩ := taken_ring ring
    have moves : t.engine.mode = .burning := by rw [engine]; exact (motorSteps_mode s l gap).trans mode
    refine ⟨t, _, steps, moves, by rw [engine]; rfl, taken, take, others, frame, by rw [engine], _, rfl, rfl, ?_, rfl⟩
    rw [Engine.burnLine, Engine.behind, blank]
    rfl
  have way : s.LinesOn l b rs gap := ⟨⟨set, .inr mode, line, by rw [stepRead_eq set profile]; exact short⟩, mode, task, heads, out⟩
  intro read handed burns
  have reading : s.stepRead gap = read := stepRead_eq set profile gap
  refine ⟨?onward, ?carried, ?underrun, ?spoiled, ?spoiledCancelled, fun cancelled sound left => way.cancelled_goes runs sound cancelled left,
    fun j lr queued cancelled sound last found => way.cancelled_ends runs sound queued cancelled last found⟩
  case onward =>
    intro i x j f queued live active sound left burning sole record job copy begun
    have onward : s.BurnsOn l b rs gap h j f := ⟨way, runs, profile, queued, live, active, sound, left⟩
    refine ⟨fun more => ?_, fun y all found yjob ycopy ybegun more => ?_⟩
    · have here := burning?_of_sole burning sole
      refine ⟨_, onward.burnsNext here record ⟨job, copy⟩ begun more, handed_of_ports rfl, way.burning_of_line profile rfl, ?_⟩
      rw [State.past, ringPast_of_left here record more]
      rfl
    · obtain ⟨t, steps, ports, engine, rest⟩ := onward.takesNext burning sole record all.le found ⟨yjob, ycopy⟩ ybegun more
      exact ⟨t, steps, ports, way.burning_of_line profile engine, rest⟩
  case carried =>
    intro live sound last peel far carries
    have whole : s.WholeOn l b rs gap h := ⟨way, runs, profile, live, sound, last, peel, far⟩
    refine ⟨whole.carries, fun x tear found first stays => ?_⟩
    intro usable
    exact ⟨fun y edge ahead => whole.approaches tear found first stays (by rw [reading]; exact edge) (by rw [reading]; exact ahead),
      fun lost => whole.seeks tear found first stays (by rw [reading]; exact lost)⟩
  case underrun =>
    intro i x live sound left burning sole record all lacks
    obtain ⟨empty, others, idle⟩ := past_buffers (l := l) (gap := gap) burning sole record all.le
    have steps := way.underruns runs live sound left idle lacks
    refine ⟨fun pause => ?_, fun redo => ?_⟩
    · rw [underrun_pause (by exact set) pause] at steps
      exact ⟨_, steps, rfl, rfl, rfl, motorStop_history _, rfl, empty, past_take s l b gap, rfl, rfl⟩
    · rw [underrun_redo (by exact set) redo rfl] at steps
      exact ⟨_, _, steps, past_mode way, rfl, rfl, rfl, empty, past_take s l b gap, rfl⟩
  case spoiled =>
    intro j lr live spoiled last queued found
    obtain ⟨t, c, steps, mode, none, ring, hand, redo, report⟩ :=
      way.spoiled_ends runs spoiled last queued found (o := .spoiled) (first := s.redoEntry? b.job b.copy) (by rw [live]; rfl)
        (by rw [live]; rfl)
    have entry : s.redoEntry? b.job b.copy = some { job := b.job, copy := b.copy, values := lr.values } := by
      rw [State.redoEntry?, found]
      rfl
    rw [entry] at redo
    refine ⟨t, c, steps, mode, none, ring, hand, by rw [redo]; rfl, ?_, report⟩
    rw [redo, ← List.append_assoc]
    exact List.suffix_append ..
  case spoiledCancelled =>
    intro j lr queued cancelled spoiled last found
    have flag : s.isCancelled b.job = true := by simp [State.isCancelled, queued, cancelled]
    obtain ⟨t, c, steps, mode, none, ring, hand, redo, report⟩ :=
      way.spoiled_ends runs spoiled last queued found (o := .voided) (first := Option.none) (by rw [flag]; rfl) (by rw [flag]; rfl)
    rw [Option.toList_none, List.nil_append] at redo
    refine ⟨t, c, steps, mode, none, ring, hand, by rw [redo]; exact List.suffix_append .., fun x mem own => ?_, report⟩
    rw [redo, List.mem_append] at mem
    exact mem.resolve_left fun later =>
      laterEntries_of_voided (s := s.past l b gap) (b := b.lineDone) queued cancelled found later own

end Sys2Proof.Machine
end

section
/-! PROOFS. The reports on the ports' lists, whatever places them: each list keeps its newest twelve, and a label's end places one completion
report at the origin and at every port whose watch wants it (R76, R179, R181). -/

namespace Sys2Proof.Machine

/-! ### Lists of the newest twelve (R179) -/

/-- The newest twelve of some reports, oldest first. -/
def newest (l : List Report) : List Report := l.drop (l.length - 12)

theorem newest_length (l : List Report) : (newest l).length ≤ 12 := by
  rw [newest, List.length_drop]
  omega

theorem newest_of_few {l : List Report} (few : l.length ≤ 12) : newest l = l := by
  rw [newest, Nat.sub_eq_zero_of_le few, List.drop_zero]

/-- Reports dropped early are not among the newest later. -/
theorem newest_append (l m : List Report) : newest (newest l ++ m) = newest (l ++ m) := by
  obtain few | many := Nat.le_total l.length 12
  · rw [newest_of_few few]
  · have early : newest l ++ m = (l ++ m).drop (l.length - 12) := (List.drop_append_of_le_length (Nat.sub_le ..)).symm
    rw [early, newest, newest, List.drop_drop, List.length_drop, List.length_append]
    congr 1
    omega

theorem newest_concat_getLast? (l : List Report) (r : Report) : (newest (l ++ [r])).getLast? = some r := by
  rw [newest, List.length_append, List.length_singleton, List.drop_append_of_le_length (by omega), List.getLast?_concat]

/-- A list once some reports are placed on it, one after the other (R179). -/
def reportsAfter (old new : List Report) : List Report := new.foldl (fun l r => newest (l ++ [r])) old

theorem reportsAfter_append (old a b : List Report) : reportsAfter (reportsAfter old a) b = reportsAfter old (a ++ b) :=
  List.foldl_append.symm

theorem reportsAfter_getLast? (old new : List Report) (r : Report) : (reportsAfter old (new ++ [r])).getLast? = some r := by
  rw [← reportsAfter_append]
  exact newest_concat_getLast? ..

/-- A bounded list keeps the newest twelve of the old reports and the new. -/
theorem reportsAfter_eq_newest {old : List Report} (few : old.length ≤ 12) (new : List Report) :
    reportsAfter old new = newest (old ++ new) := by
  induction new generalizing old with
  | nil => rw [List.append_nil, newest_of_few few]; rfl
  | cons r new ih =>
    calc reportsAfter old (r :: new)
      _ = newest (newest (old ++ [r]) ++ new) := ih (newest_length _)
      _ = newest (old ++ r :: new) := by rw [newest_append, List.append_assoc]; rfl

theorem place_reports (q : PortState) (r : Report) : (q.place r).reports = newest (q.reports ++ [r]) := by
  rw [PortState.place, portPost_reports]
  split
  next few => rw [newest_of_few (by rw [List.length_append, List.length_singleton]; omega)]
  next full =>
    rw [newest, List.length_append, List.length_singleton, List.drop_append_of_le_length (by omega)]
    rfl

@[simp] theorem place_settings (q : PortState) (r : Report) : (q.place r).settings = q.settings := by
  rw [PortState.place, portPost_settings]
  split <;> rfl

/-! ### What places which reports -/

/-- From one state to the next the ports keep their settings, and their lists take some reports each (R179). -/
structure State.Lists (s t : State) (new : Port → List Report) : Prop where
  settings : ∀ q, (t.port q).settings = (s.port q).settings
  reports  : ∀ q, (t.port q).reports = reportsAfter (s.port q).reports (new q)

namespace State.Lists

theorem trans {s t u : State} {a b : Port → List Report} (h : s.Lists t a) (k : t.Lists u b) : s.Lists u fun q => a q ++ b q :=
  ⟨fun q => (k.settings q).trans (h.settings q), fun q => by rw [k.reports, h.reports, reportsAfter_append]⟩

/-- Nothing is placed. -/
theorem of_same {s t : State} (settings : ∀ q, (t.port q).settings = (s.port q).settings)
    (reports : ∀ q, (t.port q).reports = (s.port q).reports) : s.Lists t fun _ => [] := ⟨settings, reports⟩

theorem of_ports {s t : State} (same : t.ports = s.ports) : s.Lists t fun _ => [] :=
  of_same (fun q => by rw [State.port, same]; rfl) fun q => by rw [State.port, same]; rfl

/-- A last step that places nothing. -/
theorem quiet {s t u : State} {a : Port → List Report} (h : s.Lists t a) (k : t.Lists u fun _ => []) : s.Lists u a := by
  simpa only [List.append_nil] using h.trans k

/-- A first step that places nothing. -/
theorem after {s t u : State} {a : Port → List Report} (h : s.Lists t fun _ => []) (k : t.Lists u a) : s.Lists u a := h.trans k

/-- Bounded lists hold the newest twelve of what they held and took. -/
theorem newest {s t : State} {a : Port → List Report} (h : s.Lists t a) (bounded : s.reportsBounded) (q : Port) :
    (t.port q).reports = Machine.newest ((s.port q).reports ++ a q) := by
  rw [h.reports, reportsAfter_eq_newest (bounded q)]

/-- The last report placed on a list is its last. -/
theorem last {s t : State} {a : Port → List Report} (h : s.Lists t a) {q : Port} {front : List Report} {r : Report}
    (new : a q = front ++ [r]) : (t.port q).reports.getLast? = some r := by
  rw [h.reports, new, reportsAfter_getLast?]

end State.Lists

/-- The completion reports that a port's list takes: of the jobs it is the origin of, and of those its watch wants (R76, R181). -/
def State.listed (s : State) (made : List Completion) (q : Port) : List Report :=
  (made.filter fun c => decide (q = c.origin) || (s.port q).settings.wants c.key).map Report.completion

theorem listed_cons (s : State) (c : Completion) (made : List Completion) (q : Port) :
    s.listed (c :: made) q = s.listed [c] q ++ s.listed made q := by
  simp only [State.listed, ← List.map_append, ← List.filter_append, List.singleton_append]

theorem listed_single (s : State) (c : Completion) (q : Port) :
    s.listed [c] q = if q = c.origin || (s.port q).settings.wants c.key then [.completion c] else [] := by
  rw [State.listed, List.filter_singleton]
  cases decide (q = c.origin) || (s.port q).settings.wants c.key <;> rfl

/-- What the lists take is settled by the ports' settings. -/
theorem State.Lists.listed {s t : State} {a : Port → List Report} (h : s.Lists t a) (made : List Completion) :
    t.listed made = s.listed made := by
  funext q
  rw [State.listed, h.settings]
  rfl

theorem foldl_placeAt_port {l : List Port} (once : l.Nodup) (c : Completion) (s : State) (q : Port) :
    (l.foldl (State.placeAt c) s).port q =
      if q ∈ l ∧ (q = c.origin || (s.port q).settings.wants c.key) = true then (s.port q).place (.completion c) else s.port q := by
  induction l generalizing s with
  | nil => simp
  | cons p l ih =>
    obtain ⟨new, once⟩ := List.nodup_cons.mp once
    rw [List.foldl_cons, ih once]
    by_cases same : p = q
    · subst same
      simp only [new, false_and, if_false, List.mem_cons_self, true_and]
      unfold State.placeAt
      split
      · exact port_onPort_self ..
      · rfl
    · have left : (State.placeAt c s p).port q = s.port q := by
        unfold State.placeAt
        split
        · exact port_onPort_ne _ _ same
        · rfl
      simp [left, Ne.symm same]

/-- A completion report comes to the lists that take it (R76, R181). -/
theorem lists_placeCompletion (s : State) (c : Completion) : s.Lists (s.placeCompletion c) (s.listed [c]) := by
  have port (q : Port) : (s.placeCompletion c).port q =
      if q = c.origin || (s.port q).settings.wants c.key then (s.port q).place (.completion c) else s.port q :=
    (foldl_placeAt_port (List.nodup_finRange 4) c s q).trans (by simp only [List.mem_finRange, true_and])
  refine ⟨fun q => ?_, fun q => ?_⟩ <;> rw [port]
  · split
    · exact place_settings ..
    · rfl
  · rw [listed_single]
    split
    · exact place_reports ..
    · rfl

theorem lists_settle (s : State) : s.Lists s.settle fun _ => [] := .of_same (fun q => by
    obtain ⟨w, port, -⟩ := settle_port s q
    rw [port]) (settle_reports s)

theorem lists_endCounted (s : State) (job : Nat) (j : Job) (o : LabelOutcome) : s.Lists (s.endCounted job j o) fun _ => [] := by
  have leaves (t : State) (n : Nat) : t.Lists (t.leaveQueue n) fun _ => [] :=
    .of_same (fun q => by rw [leaveQueue_port]) fun q => by rw [leaveQueue_port]
  have counts : s.Lists (if o.completes then s.onJob job fun j => { j with completed := j.completed + 1 } else s) fun _ => [] := by
    split <;> exact .of_ports rfl
  unfold State.endCounted
  dsimp only
  split
  · exact counts.quiet (leaves _ job)
  · exact counts

/-- The end of a label of a queued job places its report alone (R75, R76). -/
theorem lists_endLabel {s : State} {job copy : Nat} {j : Job} {l : LabelRecord} (queued : s.job? job = some j)
    (found : s.label? job copy = some l) (o : LabelOutcome) (mismatch : Bool) :
    s.Lists (s.endLabel job copy o mismatch) (s.listed [completionOf j l o mismatch]) := by
  rw [endLabel_known queued found]
  have off (t : State) : t.Lists (t.labelOff job copy) fun _ => [] := .of_ports rfl
  exact (((lists_placeCompletion s _).quiet (off _)).quiet (lists_endCounted _ job j o)).quiet (lists_settle _)

theorem lists_dryTake (s : State) : s.Lists s.dryTake fun _ => [] := by
  have fuel (n : Nat) (s : State) : s.Lists (dryTakeFuel n s) fun _ => [] := by
    induction n generalizing s with
    | zero => exact .of_ports rfl
    | succ n ih =>
      unfold dryTakeFuel
      split
      · exact .of_ports rfl
      · split
        · exact State.Lists.after (t := s.skipBand) (.of_ports rfl) ((lists_settle s.skipBand).after (ih _))
        · exact .of_ports rfl
  unfold State.dryTake
  split
  · exact fuel 9 s
  · exact .of_ports rfl

theorem lists_taken (s : State) (p : Port) : s.Lists (s.taken p) fun _ => [] := .of_same (fun q => by
    rw [taken_port]
    split
    · exact takeFrame_settings _
    · rfl) (taken_reports s p)

end Sys2Proof.Machine
end

section
/-! PROOFS. Labels that end DRY one after the other, and DRY-RUN-OFF with DRY left at once or once the band in consumption is done (O35). -/

namespace Sys2Proof.Machine

/-! ### What a label end leaves of the other labels -/

theorem labelOff_label? {s : State} {job copy a b : Nat} (other : ¬ (a = job ∧ b = copy)) :
    (s.labelOff job copy).label? a b = s.label? a b :=
  (find?_label_filter (fun a b => !(a == job && b == copy)) s.labels a b).trans (if_pos (by simpa [imp_iff_not_or] using other))

/-- Another label is still in the ring, in hand or at the head (R99). -/
theorem endLabel_holdsLabel {s : State} {job copy a b : Nat} (other : ¬ (a = job ∧ b = copy)) (o : LabelOutcome) (mismatch : Bool) :
    (s.endLabel job copy o mismatch).holdsLabel a b = s.holdsLabel a b := by
  have hand : (s.endLabel job copy o mismatch).inHand a b = s.inHand a b := by rw [endLabel_frame]; rfl
  have ring : (s.endLabel job copy o mismatch).inRing a b = s.inRing a b := by rw [endLabel_frame]; rfl
  have head : (s.endLabel job copy o mismatch).atHead a b = s.atHead a b := by
    rw [State.atHead, endLabel_heads, List.any_filter]
    refine congrArg s.engine.heads.any (funext fun h => ?_)
    by_cases same : h.job = a ∧ h.copy = b
    · obtain ⟨rfl, rfl⟩ := same
      simpa [imp_iff_not_or] using other
    · rw [show (h.job == a && h.copy == b) = false by simpa using same, Bool.and_false]
  rw [State.holdsLabel, hand, ring, head]
  rfl

/-- The record of another label still held is found as before (R99). -/
theorem endLabel_label? {s : State} {job copy a b : Nat} (other : ¬ (a = job ∧ b = copy)) (held : s.holdsLabel a b = true)
    (o : LabelOutcome) (mismatch : Bool) : (s.endLabel job copy o mismatch).label? a b = s.label? a b := by
  have stays := (endLabel_holdsLabel other o mismatch).trans held
  by_cases unknown : s.job? job = none ∨ s.label? job copy = none
  · rw [endLabel_unknown unknown, labelOff_label? other]
  · push Not at unknown
    obtain ⟨j, queued⟩ := Option.ne_none_iff_exists'.mp unknown.1
    obtain ⟨l, found⟩ := Option.ne_none_iff_exists'.mp unknown.2
    rw [endLabel_known queued found] at stays ⊢
    rw [settle_holdsLabel] at stays
    rw [settle_label? stays, endCounted_frame, placeCompletion_frame]
    exact labelOff_label? other

/-- With a label of it still in flight a job stays, a copy more counted where it was its label that ended (R72, R73). -/
theorem endLabel_job?_of_flight {s : State} {job copy n : Nat} {j : Job} {l : LabelRecord} {o : LabelOutcome} {mismatch : Bool}
    (queued : s.job? job = some j) (found : s.label? job copy = some l)
    (flight : (s.endLabel job copy o mismatch).jobInFlight n = true) :
    (s.endLabel job copy o mismatch).job? n = if n = job then j.afterEnd o else s.job? n := by
  rw [endLabel_known queued found] at flight ⊢
  rw [settle_job? flight, endCounted_job? ((reported_job? ..).trans queued), reported_job?]

theorem afterEnd_dry (j : Job) :
    j.afterEnd .dry = if j.completed + 1 = j.total then none else some { j with completed := j.completed + 1 } := rfl

/-! ### Labels that end DRY, one after the other (R162) -/

/-- The reports of labels that end DRY: of those whose job is queued (R75, R162). -/
def State.dryReports (s : State) (labels : List LabelRecord) : List Completion :=
  labels.filterMap fun l => (s.job? l.job).map fun j => completionOf j l .dry false

/-- Labels ended DRY in their order (R162). -/
def State.endDry (s : State) (labels : List LabelRecord) : State := labels.foldl (fun s l => s.endLabel l.job l.copy .dry false) s

/-- Labels in flight, each once, and of no job more than its copies not completed (R73, R99). -/
structure State.InFlight (s : State) (labels : List LabelRecord) : Prop where
  names : (labels.map fun l => (l.job, l.copy)).Nodup
  found : ∀ l ∈ labels, s.label? l.job l.copy = some l
  held  : ∀ l ∈ labels, s.holdsLabel l.job l.copy = true
  room  : ∀ n j, s.job? n = some j → j.completed + (labels.filter fun l => l.job = n).length ≤ j.total

section
variable {s : State} {l : LabelRecord} {labels : List LabelRecord}

/-- Once the first has ended DRY the others are in flight still (R73, R99). -/
theorem State.InFlight.step (all : s.InFlight (l :: labels)) : (s.endLabel l.job l.copy .dry false).InFlight labels := by
  obtain ⟨names, found, held, room⟩ := all
  obtain ⟨new, names⟩ := List.nodup_cons.mp names
  have other (m : LabelRecord) (mem : m ∈ labels) : ¬ (m.job = l.job ∧ m.copy = l.copy) := fun same =>
    new (List.mem_map.mpr ⟨m, mem, Prod.ext same.1 same.2⟩)
  refine ⟨names, fun m mem => ?_, fun m mem => ?_, fun n k after => ?_⟩
  · exact (endLabel_label? (other m mem) (held m (.tail _ mem)) ..).trans (found m (.tail _ mem))
  · exact (endLabel_holdsLabel (other m mem) ..).trans (held m (.tail _ mem))
  · obtain ⟨j, before, was⟩ := endLabel_job? after
    have bound := room n j before
    rw [List.filter_cons] at bound
    split at was
    next same =>
      rw [if_pos (by simp [same.1]), List.length_cons] at bound
      rw [afterEnd_dry] at was
      split at was
      · cases was
      · cases was
        show j.completed + 1 + _ ≤ j.total
        omega
    next =>
      subst was
      split at bound
      · rw [List.length_cons] at bound
        omega
      · exact bound

/-- The first's end changes nothing of what the others' reports say (R75). -/
theorem State.InFlight.dryReports_step (all : s.InFlight (l :: labels)) :
    (s.endLabel l.job l.copy .dry false).dryReports labels = s.dryReports labels := by
  have label := all.found l (.head _)
  refine List.filterMap_congr fun m mem => ?_
  cases queued : s.job? l.job with
  | none =>
    rw [endLabel_unknown (.inl queued)]
    rfl
  | some j =>
    have flight := jobInFlight_of_label? (all.step.found m mem)
    rw [endLabel_job?_of_flight queued label flight]
    split
    next same =>
      have more : j.completed + 1 ≠ j.total := by
        have bound := all.room l.job j queued
        have two : 2 ≤ ((l :: labels).filter fun x => x.job = l.job).length := by
          rw [List.filter_cons_of_pos (by simp), List.length_cons]
          exact Nat.succ_le_succ (List.length_pos_of_mem (List.mem_filter.mpr ⟨mem, by simpa using same⟩))
        omega
      rw [same, queued, afterEnd_dry, if_neg more]
      rfl
    next => rfl

/-- Labels in flight that end DRY place their reports in the order in which they end (R75, R162). -/
theorem lists_endDry (all : s.InFlight labels) : s.Lists (s.endDry labels) (s.listed (s.dryReports labels)) := by
  induction labels generalizing s with
  | nil => exact .of_ports rfl
  | cons l labels ih =>
    have rest := ih all.step
    rw [all.dryReports_step] at rest
    cases queued : s.job? l.job with
    | none =>
      have made : s.dryReports (l :: labels) = s.dryReports labels := by simp [State.dryReports, queued]
      have first : s.Lists (s.endLabel l.job l.copy .dry false) fun _ => [] := by
        rw [endLabel_unknown (.inl queued)]
        exact .of_ports rfl
      rw [first.listed] at rest
      rw [made]
      exact first.after rest
    | some j =>
      have made : s.dryReports (l :: labels) = completionOf j l .dry false :: s.dryReports labels := by simp [State.dryReports, queued]
      have first := lists_endLabel queued (all.found l (.head _)) .dry false
      rw [first.listed] at rest
      rw [made, show s.listed (completionOf j l .dry false :: s.dryReports labels) = _ from funext (listed_cons s _ _)]
      exact first.trans rest

end

/-- Labels that end touch the ports, the queue, the label records and the labels at the head. -/
theorem endDry_frame (s : State) (labels : List LabelRecord) : s.endDry labels = { s with
    ports := (s.endDry labels).ports, queue := (s.endDry labels).queue, labels := (s.endDry labels).labels
    engine := { s.engine with heads := (s.endDry labels).engine.heads } } :=
  foldl_keeps (fun s t => t = { s with
      ports := t.ports, queue := t.queue, labels := t.labels, engine := { s.engine with heads := t.engine.heads } })
    (fun _ => rfl) (fun h k => by rw [k, h]) (fun s l => endLabel_frame s l.job l.copy .dry false) labels s

/-! ### DRY left (R162) -/

/-- The labels that end as DRY is left: those of jobs not cancelled. -/
def State.dryEnding (s : State) : List LabelRecord := s.labels.filter fun l => !s.isCancelled l.job

/-- What leaving DRY leaves: ring and composer empty, no label in flight off the redo list, registration lost, and the engine STOPPED, or in
FAULT with the faults that stand. -/
structure State.DryLeft (s u : State) : Prop where
  mode       : u.engine.mode = if s.engine.faults = .none then .stopped else .fault
  ring       : u.ring = Ring.empty
  hand       : u.hand = none
  labels     : u.labels = []
  heads      : u.engine.heads = []
  registered : u.engine.registered = false
  edges      : u.engine.edges = []
  hp         : u.engine.hp = s.engine.hp
  leavingDry : u.engine.leavingDry = false
  reports    : ∀ q, (u.port q).reports = ((s.endDry s.dryEnding).port q).reports
  frame      : u = { s with
    ring := u.ring, hand := u.hand, labels := u.labels, engine := u.engine, queue := u.queue, ports := u.ports }

/-- With nothing in the ring, in hand or at the head no label record stays (R99). -/
theorem settle_labels_of_empty {s : State} (ring : s.ring = Ring.empty) (hand : s.hand = none) (heads : s.engine.heads = []) :
    s.settle.labels = [] := by
  have free (job copy : Nat) : s.holdsLabel job copy = false := by
    simp [State.holdsLabel, State.inHand, State.inRing, State.atHead, ring, hand, heads, Ring.empty, Buffer.empty, Buffer.holds]
  simp [settle_labels, free]

/-- An entry into FAULT with nothing in the ring, in hand or at the head leaves the redo list and reports nothing (R151). -/
theorem enterFault_of_empty {s : State} (ring : s.ring = Ring.empty) (hand : s.hand = none) (heads : s.engine.heads = []) :
    s.enterFault = ((s.onEngine Engine.motorStop).settle.onEngine (·.faultCleared s.sensorOffset)).postAll .engineFault := by
  set t := s.onEngine Engine.motorStop
  have none : t.engine.heads = [] := heads
  have ends : t.headsFaulted = t := by rw [State.headsFaulted, none]; rfl
  have entry : t.faultedEntry = Option.none := by rw [State.faultedEntry, none]; rfl
  have entries : t.flushEntries Option.none = [] := by
    simp [State.flushEntries, State.ringLabels, State.buffer, t, ring, hand, Ring.empty, Buffer.empty, firstOnly]
  have flushed : t.flush Option.none = t.settle := by
    rw [State.flush, entries]
    congr 1
    simp only [t, State.onEngine, List.nil_append, ← ring, ← hand]
  rw [enterFault_eq, ends, entry, flushed]
  rfl

/-- DRY just left, before the labels settle: the labels in flight ended, ring and composer empty, registration lost. -/
def State.dryEmptied (s : State) : State :=
  { (s.endDry s.dryEnding).onEngine fun e => { e with
      mode := .stopped, heads := [], dryLine := none, leavingDry := false, registered := false, edges := [] } with
    ring := .empty, hand := none }

theorem leaveDry_eq (s : State) : s.leaveDry =
    if s.dryEmptied.settle.engine.faults.isEmpty then s.dryEmptied.settle.engineLook else s.dryEmptied.settle.enterFault := rfl

/-- The engine as DRY is left, before its look (R162). -/
def Engine.dryLeft (e : Engine) : Engine :=
  { e with mode := .stopped, heads := [], dryLine := none, leavingDry := false, registered := false, edges := [] }

theorem dryEmptied_frame (s : State) : s.dryEmptied.settle = { s with
    ports := s.dryEmptied.settle.ports, queue := s.dryEmptied.settle.queue, labels := [], ring := .empty, hand := none
    engine := s.engine.dryLeft } := by
  have labels : s.dryEmptied.settle.labels = [] := settle_labels_of_empty rfl rfl rfl
  have before : s.dryEmptied = { s with
      ports := s.dryEmptied.ports, queue := s.dryEmptied.queue, labels := s.dryEmptied.labels, ring := .empty, hand := none
      engine := s.engine.dryLeft } := by
    unfold State.dryEmptied
    rw [endDry_frame]
    rfl
  rw [settle_frame, labels, before]

theorem dryEmptied_reports (s : State) (q : Port) :
    (s.dryEmptied.settle.port q).reports = ((s.endDry s.dryEnding).port q).reports := settle_reports s.dryEmptied q

/-- Without a fault the engine stops for want of work (R147, R162). -/
theorem dryLeft_stopped {s : State} (sound : s.engine.faults = .none) : s.DryLeft s.dryEmptied.settle.engineLook := by
  have frame := dryEmptied_frame s
  have reports := dryEmptied_reports s
  generalize s.dryEmptied.settle = t at frame reports ⊢
  have stopped : t.engine.mode = .stopped := by rw [frame]; rfl
  have heads : t.engine.heads = [] := by rw [frame]; rfl
  have none : t.takeFull? = Option.none := by rw [frame]; rfl
  have look : t.engineLook = t.goOn := by simp only [State.engineLook, stopped]
  rw [look, goOn_of_nothing heads none]
  refine ⟨(if_pos sound).symm, ?_, ?_, ?_, heads, ?_, ?_, ?_, ?_, reports, ?_⟩
  all_goals rw [frame]; rfl

/-- With a fault the engine enters FAULT, and no label is left to end (R151, R162). -/
theorem dryLeft_fault {s : State} (faulty : s.engine.faults ≠ .none) : s.DryLeft s.dryEmptied.settle.enterFault := by
  have frame := dryEmptied_frame s
  have reports := dryEmptied_reports s
  generalize s.dryEmptied.settle = t at frame reports ⊢
  have ring : t.ring = Ring.empty := by rw [frame]
  have hand : t.hand = none := by rw [frame]
  have heads : t.engine.heads = [] := by rw [frame]; rfl
  have hp : t.engine.hp = s.engine.hp := by rw [frame]; rfl
  have stays : t.engine.leavingDry = false := by rw [frame]; rfl
  have labels : (t.onEngine Engine.motorStop).settle.labels = [] := settle_labels_of_empty ring hand heads
  rw [enterFault_of_empty ring hand heads]
  have engine : (((t.onEngine Engine.motorStop).settle.onEngine (·.faultCleared t.sensorOffset)).postAll .engineFault).engine =
      t.engine.motorStop.faultCleared t.sensorOffset := by
    rw [postAll_engine, engine_onEngine, settle_engine, engine_onEngine]
  refine ⟨?_, ?_, ?_, ?_, ?_, ?_, ?_, ?_, ?_, fun q => ?_, ?_⟩
  · rw [engine, if_neg faulty]
    rfl
  · rw [postAll_ring, onEngine_ring, settle_ring, onEngine_ring, ring]
  · rw [postAll_hand, onEngine_hand, settle_hand, onEngine_hand, hand]
  · rw [postAll_labels, onEngine_labels, labels]
  · rw [engine]
    exact heads
  · rw [engine]
    rfl
  · rw [engine]
    rfl
  · rw [engine]
    exact hp
  · rw [engine]
    exact stays
  · rw [postAll_reports]
    exact (settle_reports _ q).trans (reports q)
  · rw [settle_frame, frame]
    rfl

theorem dryLeft_leaveDry (s : State) : s.DryLeft s.leaveDry := by
  have faults : s.dryEmptied.settle.engine.faults = s.engine.faults := by rw [dryEmptied_frame]; rfl
  rw [leaveDry_eq, faults]
  split
  next sound => exact dryLeft_stopped (isEmpty_iff.mp sound)
  next faulty => exact dryLeft_fault (mt isEmpty_iff.mpr faulty)

/-! ### DRY-RUN-OFF taken (R161) -/

theorem exec_dryRunOff {s : State} {p : Port} (can : s.canTake p Kind.dryRunOff.byte []) :
    exec (.dryRunOff p []) s = .next ((s.taken p).takeDryRunOff p) :=
  record_of_parsed (parse := parseEmpty) (act := fun _ s => s.takeDryRunOff p) (r := ()) can rfl

/-- Outside DRY, or with DRY to be left already, there is nothing to do (R161). -/
theorem takeDryRunOff_ignored {s : State} (idle : s.engine.mode ≠ .dry ∨ s.engine.leavingDry = true) (p : Port) :
    s.takeDryRunOff p = s.answer p .dryRunOff .ignored := if_neg (by
  obtain other | leaving := idle
  · simp [other]
  · simp [leaving])

theorem takeDryRunOff_dry {s : State} (dry : s.engine.mode = .dry) (stays : s.engine.leavingDry = false) (p : Port) :
    s.takeDryRunOff p = s.askToLeaveDry.accept p .dryRunOff [] := if_pos (by simp [dry, stays])

theorem askToLeaveDry_busy {s : State} {k : Nat} (line : s.engine.dryLine = some k) :
    s.askToLeaveDry = s.onEngine fun e => { e with leavingDry := true } := if_pos (by simp [line])

theorem askToLeaveDry_idle {s : State} (line : s.engine.dryLine = none) : s.askToLeaveDry = s.leaveDry := if_neg (by simp [line])

/-- Each held, each once and of no job more than its copies left, the labels that end as DRY is left are in flight (R99). -/
theorem inFlight_dryEnding {s : State} (held : ∀ l ∈ s.labels, s.holdsLabel l.job l.copy = true)
    (names : (s.labels.map fun l => (l.job, l.copy)).Nodup)
    (room : ∀ j ∈ s.queue, j.completed + (s.labels.filter fun l => l.job = j.number).length ≤ j.total) : s.InFlight s.dryEnding where
  names := names.sublist (List.filter_sublist.map _)
  held l mem := held l (List.mem_filter.mp mem).1
  found l mem := by
    rw [State.label?, ← find?_of_nodup names (List.mem_filter.mp mem).1]
    refine congrArg (List.find? · s.labels) (funext fun m => ?_)
    rw [Bool.eq_iff_iff]
    simp
  room n j found := by
    have bound := room j (List.mem_of_find?_eq_some found)
    rw [job?_number found] at bound
    exact (Nat.add_le_add_left (List.filter_sublist.filter _).length_le _).trans bound

/-- Settles O35: by the engine's state and by what stands in consumption; what leaving DRY leaves, and which reports its label ends place. -/
theorem dryRunOffLeavesDry : Obligations.DryRunOffLeavesDry := by
  intro s p can
  refine ⟨fun other => ?_, fun k dry stays line => ?_, fun dry leaving => ?_, fun dry stays line => ?_⟩
  · exact (exec_dryRunOff can).trans (congrArg Host.Outcome.next (takeDryRunOff_ignored (s := s.taken p) (.inl other) p))
  · have asked := takeDryRunOff_dry (s := s.taken p) dry stays p
    rw [askToLeaveDry_busy (s := s.taken p) line] at asked
    exact (exec_dryRunOff can).trans (congrArg Host.Outcome.next asked)
  · exact (exec_dryRunOff can).trans (congrArg Host.Outcome.next (takeDryRunOff_ignored (s := s.taken p) (.inr leaving) p))
  · have asked := takeDryRunOff_dry (s := s.taken p) dry stays p
    rw [askToLeaveDry_idle (s := s.taken p) line] at asked
    have left := dryLeft_leaveDry (s.taken p)
    refine ⟨_, (exec_dryRunOff can).trans (congrArg Host.Outcome.next asked), left.mode, left.ring, left.hand, left.labels, left.heads,
      left.registered, left.edges, left.hp, left.leavingDry, fun bounded held names room => ?_, left.frame⟩
    intro made q
    have lists := (lists_taken s p).after (lists_endDry (inFlight_dryEnding (s := s.taken p) held names room))
    rw [left.reports, lists.newest bounded, (lists_taken s p).listed]
    rfl

end Sys2Proof.Machine
end

section
/-! PROOFS. A line consumed in DRY: the next line of its band, the band reported and freed with its label's end behind it, or the label VOIDED
where its job is cancelled; then DRY's look at the take position (O55). -/

namespace Sys2Proof.Machine

/-! ### The look at the take position (R156) -/

/-- Nothing queued under a number is cancelled. -/
def State.liveUnder (s : State) (n : Nat) : Prop := ∀ k ∈ s.queue, k.number = n → k.cancelled = false

theorem liveUnder_of_subset {s t : State} {n : Nat} (fewer : t.queue ⊆ s.queue) (live : s.liveUnder n) : t.liveUnder n :=
  fun k mem => live k (fewer mem)

theorem dryTake_of_none {s : State} (none : s.takeFull? = none) : s.dryTake = s := by
  unfold State.dryTake
  split
  · exact dryTakeFuel_of_none none 9
  · rfl

/-- DRY's look brings no job into the queue, and takes none out under whose number none is cancelled (R72, R156). -/
theorem dryTake_job? (s : State) (n : Nat) : (∀ k, s.dryTake.job? n = some k → s.job? n = some k) ∧
    (s.liveUnder n → s.dryTake.job? n = s.job? n) := by
  have fuel (m : Nat) (s : State) : (∀ k, (dryTakeFuel m s).job? n = some k → s.job? n = some k) ∧
      (s.liveUnder n → (dryTakeFuel m s).job? n = s.job? n) := by
    induction m generalizing s with
    | zero => exact ⟨fun _ => id, fun _ => rfl⟩
    | succ m ih =>
      unfold dryTakeFuel
      split
      · exact ⟨fun _ => id, fun _ => rfl⟩
      · split
        · obtain ⟨old, same⟩ := ih s.skipBand.settle
          refine ⟨fun k found => job?_of_settle (s := s.skipBand) (old k found), fun live => ?_⟩
          exact (same (liveUnder_of_subset (State.Yields.settle s.skipBand).queue live)).trans
            (settle_job?_of_live (s := s.skipBand) live)
        · exact ⟨fun _ => id, fun _ => rfl⟩
  unfold State.dryTake
  split
  · exact fuel 9 s
  · exact ⟨fun _ => id, fun _ => rfl⟩

theorem keepsEvents_dryTake (s : State) : s.KeepsEvents s.dryTake := by
  have fuel (n : Nat) (s : State) : s.KeepsEvents (dryTakeFuel n s) := by
    induction n generalizing s with
    | zero => exact .refl s
    | succ n ih =>
      unfold dryTakeFuel
      split
      · exact .refl s
      · split
        · exact (State.KeepsEvents.trans (.of_ports rfl) (keepsEvents_settle s.skipBand)).trans (ih _)
        · exact .of_ports rfl
  unfold State.dryTake
  split
  · exact fuel 9 s
  · exact .refl s

/-- DRY's look makes no label record (R99). -/
theorem dryTake_label?_none {s : State} {job copy : Nat} (none : s.label? job copy = none) : s.dryTake.label? job copy = Option.none := by
  rw [label?_eq_none] at none ⊢
  intro l mem same
  obtain ⟨m, inner, job', copy'⟩ := (yields_dryTake s).labels l mem
  exact none m inner ⟨job'.trans same.1, copy'.trans same.2⟩

/-! ### The label at the head in DRY (R156, R158, R159) -/

/-- A label at the head in DRY, tied to no edge (R156). -/
def dryHead (job copy : Nat) : HeadLabel :=
  { job := job, copy := copy, start := 0, length := 0, edge := none, done := 0, out := false, spoiled := false }

/-- Tied to no edge a label has no length mismatch, and no edge record goes with it: its end at the head is a label end (R154). -/
theorem endAtHead_dryHead (s : State) (job copy : Nat) (o : LabelOutcome) :
    s.endAtHead (dryHead job copy) o = s.endLabel job copy o false := by
  have edges (e : Engine) : e.edges.filter (fun x => (dryHead job copy).edge != some x.pos) = e.edges :=
    List.filter_eq_self.mpr fun _ _ => rfl
  unfold State.endAtHead
  simp only [edges]
  rfl

theorem endLabel_label?_none (s : State) (job copy : Nat) (o : LabelOutcome) (mismatch : Bool) :
    (s.endLabel job copy o mismatch).label? job copy = none := by
  rw [label?_eq_none]
  intro l mem same
  have left := (List.mem_filter.mp ((endLabel_labels ..).subset mem)).2
  simp [same] at left

/-- A label end cancels nothing (R73). -/
theorem endLabel_liveUnder {s : State} {job copy n : Nat} {o : LabelOutcome} {mismatch : Bool} (live : s.liveUnder n) :
    (s.endLabel job copy o mismatch).liveUnder n := by
  by_cases unknown : s.job? job = none ∨ s.label? job copy = none
  · rw [endLabel_unknown unknown]
    exact live
  · push Not at unknown
    obtain ⟨j, queued⟩ := Option.ne_none_iff_exists'.mp unknown.1
    obtain ⟨l, found⟩ := Option.ne_none_iff_exists'.mp unknown.2
    rw [endLabel_known queued found]
    intro k mem number
    obtain ⟨m, among, same, flag⟩ := cancelled_of_endCounted (mem_settle_queue.mp mem).1
    rw [placeCompletion_frame] at among
    rw [← flag]
    exact live m among (same.trans number)

/-! ### What is placed and handed on (R157, R182) -/

theorem handLine_port (s : State) (job copy line : Nat) (p : Port) :
    (s.handLine job copy line).port p = (s.port p).handLine job copy line := port_mapPorts s _ p

/-- A line reaches the watch that waits for it, and leaves any other port as it is (R182). -/
theorem portHandLine_spec (q : PortState) (job copy line : Nat) :
    (q.watch = some ⟨job, copy, line⟩ → (q.handLine job copy line).watch = none ∧
      Event.positionReached.isIn (q.handLine job copy line).pending = true) ∧
    (q.watch ≠ some ⟨job, copy, line⟩ → q.handLine job copy line = q) := by
  refine ⟨fun watched => ?_, fun other => if_neg other⟩
  rw [PortState.handLine, if_pos watched, isIn_post]
  exact ⟨rfl, by simp⟩

theorem lists_handLine (s : State) (job copy line : Nat) : s.Lists (s.handLine job copy line) fun _ => [] := by
  refine .of_same (fun q => ?_) fun q => ?_ <;> rw [handLine_port, PortState.handLine] <;> split <;> simp

theorem lists_place (s : State) (p : Port) (r : Report) : s.Lists (s.onPort p (·.place r)) fun q => if q = p then [r] else [] := by
  have port (q : Port) : (s.onPort p (·.place r)).port q = if q = p then (s.port q).place r else s.port q := by
    split
    next same => rw [same, port_onPort_self]
    next other => exact port_onPort_ne _ _ (Ne.symm other)
  refine ⟨fun q => ?_, fun q => ?_⟩ <;> rw [port] <;> split
  exacts [place_settings .., rfl, place_reports .., rfl]

/-- The report of a band of a job (R157). -/
def State.bandReportOf (s : State) (j : Job) (i : Fin 8) (r : BandRecord) : Report := .band {
  job := j.number, copy := r.copy, band := r.band, check := r.check,
  burned := burnedDots ((s.activeForm j.form).elim 0#4 Form.printPlanes) r.count (s.buffer i).cells }

theorem bandReport_eq {s : State} {r : BandRecord} {j : Job} (queued : s.job? r.job = some j) (i : Fin 8) :
    s.bandReport i r = s.onPort j.origin (·.place (s.bandReportOf j i r)) := by
  rw [State.bandReport, queued, State.bandReportOf, job?_number queued]

/-! ### A line consumed (R156 to R159) -/

/-- A line of a band is in consumption in DRY. -/
structure State.Consumes (s : State) (k : Nat) (i : Fin 8) (r : BandRecord) : Prop where
  runs   : s.held = false
  dry    : s.engine.mode = .dry
  line   : s.engine.dryLine = some k
  burns  : s.burning? = some i
  record : (s.buffer i).record = some r

/-- The line handed to the watches (R156, R182). -/
def State.lineHanded (s : State) (k : Nat) (r : BandRecord) : State := s.handLine r.job r.copy (r.first + k)

/-- The band reported with its last line consumed (R157). -/
def State.bandConsumed (s : State) (k : Nat) (i : Fin 8) (r : BandRecord) : State :=
  ((s.lineHanded k r).bandReport i r).onEngine fun e => { e with dryLine := none }

/-- The band consumed, and the label ended DRY with its last band (R157, R158). -/
def State.bandEnded (s : State) (k : Nat) (i : Fin 8) (r : BandRecord) : State :=
  if r.last then (s.bandConsumed k i r).endLabel r.job r.copy .dry false else s.bandConsumed k i r

/-- The buffer freed behind it, before DRY looks at the take position (R98). -/
def State.bandFreed (s : State) (k : Nat) (i : Fin 8) (r : BandRecord) : State := ((s.bandEnded k i r).freeDryBand i).settle

/-- The band given up with its job cancelled (R159). -/
def State.bandDropped (s : State) (k : Nat) (i : Fin 8) (r : BandRecord) : State :=
  ((s.lineHanded k r).freeDryBand i).onEngine fun e => { e with dryLine := none }

section
variable {s : State} {k : Nat} {i : Fin 8} {r : BandRecord}

theorem State.Consumes.exec_eq (way : s.Consumes k i r) : exec .dryLineConsumed s = .next
    (if s.isCancelled r.job then ((s.bandDropped k i r).endLabel r.job r.copy .voided false).dryNext
      else if k + 1 < r.count then (s.lineHanded k r).onEngine fun e => { e with dryLine := some (k + 1) }
      else (s.bandFreed k i r).dryNext) := by
  have exec : exec .dryLineConsumed s = .next s.consumeLine := running_of_not_held way.runs _
  rw [exec]
  simp only [State.consumeLine, way.dry, way.line, way.burns, way.record]
  rfl

theorem dryNext_stays (stays : s.engine.leavingDry = false) : s.dryNext = s.dryTake := if_neg (by simp [stays])

/-- Where the take position stands once the band in consumption is freed (R98, R156; log 19). -/
def State.takeAfter (s : State) : Fin 8 := if Config.dryMovesAtTaking then s.ring.take else s.ring.take + 1

/-- A band is done with in DRY: its buffer is freed, nothing is in consumption, and DRY has yet to look at the take position (R98, R156). -/
structure State.DryFreed (s t : State) (i : Fin 8) : Prop where
  ring   : t.ring = (s.freeDryBand i).ring
  engine : t.engine = { s.engine with dryLine := none, heads := t.engine.heads }
  frame  : t = { s with engine := t.engine, ring := t.ring, ports := t.ports, queue := t.queue, labels := t.labels }

namespace State.DryFreed
variable {t : State} (freed : s.DryFreed t i)
include freed

theorem buffer (m : Fin 8) : t.buffer m = if i = m then Buffer.empty else s.buffer m := by
  rw [State.buffer, freed.ring]
  split
  next same =>
    subst same
    exact buffer_onBuffer_self s i fun _ => Buffer.empty
  next other => exact buffer_onBuffer_ne s (fun _ => Buffer.empty) other

theorem take : t.ring.take = s.takeAfter := by
  rw [freed.ring]
  exact take_freeDryBand s i

/-- With no FULL band behind, the look finds nothing (R156). -/
theorem dryTake (behind : (s.buffer s.takeAfter).state ≠ .full) : t.dryTake = t := by
  refine dryTake_of_none (if_neg ?_)
  rw [freed.take, freed.buffer]
  split
  · exact BufferState.noConfusion
  · exact behind

/-- What the look leaves: DRY goes on, the freed buffer stays free, and with no FULL band behind nothing is in consumption. -/
theorem looks (dry : s.engine.mode = .dry) (stays : s.engine.leavingDry = false) :
    t.dryNext = t.dryTake ∧ t.dryTake.engine.mode = .dry ∧ t.dryTake.buffer i = Buffer.empty ∧
      ((s.buffer s.takeAfter).state ≠ .full → t.dryTake.engine.dryLine = none ∧ t.dryTake.ring.take = s.takeAfter) ∧
      t.dryTake = { s with
        engine := t.dryTake.engine, ring := t.dryTake.ring, ports := t.dryTake.ports, queue := t.dryTake.queue
        labels := t.dryTake.labels } := by
  have empty : t.buffer i = Buffer.empty := by rw [freed.buffer, if_pos rfl]
  refine ⟨dryNext_stays ?_, ?_, ?_, fun behind => ?_, ?_⟩
  · rw [freed.engine]
    exact stays
  · rw [(drive_eq_iff.mp (dryTake_drive t)).1, freed.engine]
    exact dry
  · obtain same | ⟨full, -⟩ := (yields_dryTake t).buffers i
    · exact same.trans empty
    · rw [empty] at full
      cases full
  · rw [freed.dryTake behind, freed.engine]
    exact ⟨rfl, freed.take⟩
  · rw [(yields_dryTake t).frame, freed.frame]

end State.DryFreed

/-! ### The band consumed, its label ended (R157, R158) -/

theorem bandReport_frame (s : State) (i : Fin 8) (r : BandRecord) : s.bandReport i r = { s with ports := (s.bandReport i r).ports } := by
  unfold State.bandReport
  split <;> rfl

theorem bandConsumed_frame (s : State) (k : Nat) (i : Fin 8) (r : BandRecord) : s.bandConsumed k i r = { s with
    ports := (s.bandConsumed k i r).ports, engine := { s.engine with dryLine := none } } := by
  unfold State.bandConsumed
  rw [bandReport_frame]
  rfl

theorem bandConsumed_job? (s : State) (k : Nat) (i : Fin 8) (r : BandRecord) (n : Nat) : (s.bandConsumed k i r).job? n = s.job? n := by
  rw [bandConsumed_frame]
  rfl

theorem bandConsumed_label? (s : State) (k : Nat) (i : Fin 8) (r : BandRecord) (job copy : Nat) :
    (s.bandConsumed k i r).label? job copy = s.label? job copy := by
  rw [bandConsumed_frame]
  rfl

theorem dryFreed_bandFreed (s : State) (k : Nat) (i : Fin 8) (r : BandRecord) : s.DryFreed (s.bandFreed k i r) i := by
  have frame : s.bandEnded k i r = { s with
      ports := (s.bandEnded k i r).ports, queue := (s.bandEnded k i r).queue, labels := (s.bandEnded k i r).labels
      engine := { s.engine with dryLine := none, heads := (s.bandEnded k i r).engine.heads } } := by
    unfold State.bandEnded
    split
    · rw [endLabel_frame, bandConsumed_frame]
    · rw [bandConsumed_frame]
  unfold State.bandFreed
  rw [settle_frame]
  generalize s.bandEnded k i r = t at frame ⊢
  rw [frame]
  exact ⟨rfl, rfl, rfl⟩

theorem dryFreed_bandDropped (s : State) (k : Nat) (i : Fin 8) (r : BandRecord) :
    s.DryFreed ((s.bandDropped k i r).endLabel r.job r.copy .voided false) i := by
  rw [endLabel_frame]
  exact ⟨rfl, rfl, rfl⟩

/-- A line that is not its band's last moves DRY to the next (R156). -/
theorem State.Consumes.nextLine (way : s.Consumes k i r) (live : s.isCancelled r.job = false) (more : k + 1 < r.count) :
    exec .dryLineConsumed s = .next ((s.lineHanded k r).onEngine fun e => { e with dryLine := some (k + 1) }) := by
  rw [way.exec_eq, if_neg (by simp [live]), if_pos more]

theorem State.Consumes.lastLine (way : s.Consumes k i r) (live : s.isCancelled r.job = false) (last : k + 1 = r.count) :
    exec .dryLineConsumed s = .next (s.bandFreed k i r).dryNext := by
  rw [way.exec_eq, if_neg (by simp [live]), if_neg (by omega)]

theorem State.Consumes.cancelledLine (way : s.Consumes k i r) (cancelled : s.isCancelled r.job = true) :
    exec .dryLineConsumed s = .next ((s.bandDropped k i r).endLabel r.job r.copy .voided false).dryNext := by
  rw [way.exec_eq, if_pos cancelled]

variable {j : Job} {l : LabelRecord}

/-- The band report comes to the origin's list alone (R157). -/
theorem lists_bandConsumed (queued : s.job? r.job = some j) (k : Nat) (i : Fin 8) :
    s.Lists (s.bandConsumed k i r) fun q => if q = j.origin then [s.bandReportOf j i r] else [] := by
  have report : (s.lineHanded k r).bandReport i r = (s.lineHanded k r).onPort j.origin (·.place (s.bandReportOf j i r)) :=
    bandReport_eq (s := s.lineHanded k r) queued i
  unfold State.bandConsumed
  rw [report]
  exact ((lists_handLine ..).after (lists_place ..)).quiet (.of_ports rfl)

theorem lists_freed (t : State) (i : Fin 8) : t.Lists (t.freeDryBand i).settle.dryTake fun _ => [] :=
  (State.Lists.after (s := t) (t := t.freeDryBand i) (.of_ports rfl) (lists_settle _)).quiet (lists_dryTake _)

/-- A band that is not its label's last places its report alone (R157). -/
theorem lists_band (queued : s.job? r.job = some j) (band : r.last = false) (k : Nat) (i : Fin 8) :
    s.Lists (s.bandFreed k i r).dryTake fun q => if q = j.origin then [s.bandReportOf j i r] else [] := by
  rw [State.bandFreed, State.bandEnded, if_neg (by simp [band])]
  exact (lists_bandConsumed queued k i).quiet (lists_freed _ i)

/-- The last band of a label places its report, and the label's behind it (R157, R158). -/
theorem lists_lastBand (queued : s.job? r.job = some j) (found : s.label? r.job r.copy = some l) (last : r.last = true) (k : Nat)
    (i : Fin 8) : s.Lists (s.bandFreed k i r).dryTake fun q =>
      (if q = j.origin then [s.bandReportOf j i r] else []) ++ s.listed [completionOf j l .dry false] q := by
  have band := lists_bandConsumed queued k i
  have label := lists_endLabel ((bandConsumed_job? s k i r _).trans queued) ((bandConsumed_label? s k i r ..).trans found) .dry false
  rw [band.listed] at label
  rw [State.bandFreed, State.bandEnded, if_pos last]
  exact (band.trans label).quiet (lists_freed _ i)

/-- The job with the label's copy counted: out of the queue with its last copy, else with one more completed (R73, R158). -/
theorem job?_lastBand (queued : s.job? r.job = some j) (found : s.label? r.job r.copy = some l) (live : s.liveUnder r.job)
    (last : r.last = true) (k : Nat) (i : Fin 8) :
    (j.completed + 1 = j.total → (s.bandFreed k i r).dryTake.job? r.job = none) ∧
    (j.completed + 1 < j.total → (s.bandFreed k i r).dryTake.job? r.job = some { j with completed := j.completed + 1 }) := by
  have consumed : (s.bandConsumed k i r).liveUnder r.job := by
    rw [bandConsumed_frame]
    exact live
  have counted := endAtHead_job? (b := dryHead r.job r.copy) (o := .dry) ((bandConsumed_job? s k i r _).trans queued)
    ((bandConsumed_label? s k i r ..).trans found) rfl
  rw [endAtHead_dryHead] at counted
  obtain ⟨out, stays⟩ := counted
  have ended : s.bandEnded k i r = (s.bandConsumed k i r).endLabel r.job r.copy .dry false := if_pos last
  have alive : (s.bandEnded k i r).liveUnder r.job := ended ▸ endLabel_liveUnder consumed
  rw [show (dryHead r.job r.copy).job = r.job from rfl, ← ended] at out stays
  obtain ⟨old, same⟩ := dryTake_job? (s.bandFreed k i r) r.job
  refine ⟨fun all => Option.eq_none_iff_forall_ne_some.mpr fun m still => ?_, fun more => ?_⟩
  · have was : (s.bandEnded k i r).job? r.job = some m := job?_of_settle (s := (s.bandEnded k i r).freeDryBand i) (old m still)
    rw [out all] at was
    cases was
  · calc (s.bandFreed k i r).dryTake.job? r.job
      _ = (s.bandFreed k i r).job? r.job := same (liveUnder_of_subset (State.Yields.settle _).queue alive)
      _ = (s.bandEnded k i r).job? r.job := settle_job?_of_live (s := (s.bandEnded k i r).freeDryBand i) alive
      _ = some { j with completed := j.completed + 1 } := stays more.ne consumed

/-! ### The label VOIDED (R159) -/

/-- The cancelled label's report is all that is placed (R159). -/
theorem lists_bandDropped (queued : s.job? r.job = some j) (found : s.label? r.job r.copy = some l) (k : Nat) (i : Fin 8) :
    s.Lists ((s.bandDropped k i r).endLabel r.job r.copy .voided false).dryTake (s.listed [completionOf j l .voided false]) := by
  have dropped : s.Lists (s.bandDropped k i r) fun _ => [] := (lists_handLine ..).quiet (.of_ports rfl)
  have label := lists_endLabel (s := s.bandDropped k i r) queued found .voided false
  rw [dropped.listed] at label
  exact (dropped.after label).quiet (lists_dryTake _)

/-- The line in hand reaches its watches (R159, R182). -/
theorem bandDropped_watch {p : Port} (watched : (s.port p).watch = some ⟨r.job, r.copy, r.first + k⟩) (i : Fin 8) :
    Event.positionReached.isIn (((s.bandDropped k i r).endLabel r.job r.copy .voided false).dryTake.port p).pending = true := by
  have keeps := (keepsEvents_endLabel (s.bandDropped k i r) r.job r.copy .voided false).trans (keepsEvents_dryTake _)
  refine keeps p _ ?_
  have handed : (s.bandDropped k i r).port p = (s.port p).handLine r.job r.copy (r.first + k) := handLine_port ..
  rw [handed]
  exact ((portHandLine_spec ..).1 watched).2

/-- No copy counts as completed, and the cancelled job goes with the last of its labels and redo entries (R72, R73, R159). -/
theorem job?_bandDropped (queued : s.job? r.job = some j) (cancelled : j.cancelled = true) (found : s.label? r.job r.copy = some l) (k : Nat)
    (i : Fin 8) :
    (∀ q, ((s.bandDropped k i r).endLabel r.job r.copy .voided false).dryTake.job? r.job = some q → q.completed = j.completed) ∧
    ((∀ x ∈ s.labels, x.job = r.job → x.copy = r.copy) → (∀ x ∈ s.redo, x.job ≠ r.job) →
      ((s.bandDropped k i r).endLabel r.job r.copy .voided false).dryTake.job? r.job = none) := by
  rw [← endAtHead_dryHead]
  obtain ⟨old, -⟩ := dryTake_job? ((s.bandDropped k i r).endAtHead (dryHead r.job r.copy) .voided) r.job
  refine ⟨fun q still => ?_, fun sole redo => Option.eq_none_iff_forall_ne_some.mpr fun q still => ?_⟩
  · rw [endAtHead_voided_completed (s := s.bandDropped k i r) (b := dryHead r.job r.copy) queued (old q still)]
  · have none := endAtHead_voided_job?_none (s := s.bandDropped k i r) (b := dryHead r.job r.copy) queued cancelled found sole redo
    cases none.symm.trans (old q still)

end

/-- Settles O55: a line that is not its band's last, the band's last with or without its label's end, and the line of a cancelled label. -/
theorem dryRunConsumesLines : Obligations.DryRunConsumesLines := by
  refine ⟨fun s k i r j runs dry line burns record queued alive sole => ⟨fun more => ?_, fun last stays => ?_⟩,
    fun s k i r j l runs dry line stays burns record queued cancelled found => ?_⟩
  · have flag : s.isCancelled r.job = false := by simp [State.isCancelled, queued, alive]
    refine ⟨_, State.Consumes.nextLine ⟨runs, dry, line, burns, record⟩ flag more, rfl, fun p => ?_, rfl⟩
    have handed := portHandLine_spec (s.port p) r.job r.copy (r.first + k)
    rw [← handLine_port] at handed
    exact handed
  · have flag : s.isCancelled r.job = false := by simp [State.isCancelled, queued, alive]
    have live : s.liveUnder r.job := fun m mem number => sole m mem number ▸ alive
    have exec := State.Consumes.lastLine ⟨runs, dry, line, burns, record⟩ flag last
    obtain ⟨next, mode, empty, behind, frame⟩ := (dryFreed_bandFreed s k i r).looks dry stays
    rw [next] at exec
    refine ⟨_, exec, mode, frame, fun free => (behind free).2, ?_⟩
    intro report listed
    refine ⟨fun band => ?_, fun l band found => ?_⟩
    · have lists := lists_band queued band k i
      exact ⟨empty, lists.last (if_pos rfl) (front := []), fun p bounded => lists.newest bounded p⟩
    · have lists := lists_lastBand queued found band k i
      obtain ⟨out, more⟩ := job?_lastBand queued found live band k i
      have origin : s.listed [completionOf j l .dry false] j.origin = [.completion (completionOf j l .dry false)] := by
        rw [listed_single, if_pos (by simp [completionOf])]
      refine ⟨empty, ⟨completionOf j l .dry false, lists.last (congrArg₂ _ (if_pos rfl) origin), rfl, label?_copy found, rfl, rfl, rfl,
        rfl, fun p bounded => ?_⟩, out, more⟩
      have taken : (if p = j.origin then [report] else []) ++ s.listed [completionOf j l .dry false] p =
          if p = j.origin then [report, .completion (completionOf j l .dry false)]
          else if (s.port p).settings.wants j.key then [.completion (completionOf j l .dry false)] else [] := by
        rw [listed_single]
        by_cases same : p = j.origin <;> simp [same, completionOf]
      rw [← taken]
      exact lists.newest bounded p
  · have flag : s.isCancelled r.job = true := by simp [State.isCancelled, queued, cancelled]
    have exec := State.Consumes.cancelledLine ⟨runs, dry, line, burns, record⟩ flag
    obtain ⟨next, mode, empty, behind, frame⟩ := (dryFreed_bandDropped s k i r).looks dry stays
    rw [next] at exec
    obtain ⟨count, out⟩ := job?_bandDropped queued cancelled found k i
    refine ⟨_, completionOf j l .voided false, exec, mode, empty, dryTake_label?_none (endLabel_label?_none ..), rfl, rfl, rfl,
      label?_copy found, rfl, rfl, rfl, fun p => ?_, fun p watched => bandDropped_watch watched i, count, out, behind, frame⟩
    rw [(lists_bandDropped queued found k i).reports, (lists_placeCompletion s _).reports]

end Sys2Proof.Machine
end

section
/-! PROOFS. The receiving side of the ports, the assembler, the frames not yet taken and CTS of each, and the operations of the queue, the
ring and the engine, none of which touches it (R163, R165, R167). -/

namespace Sys2Proof.Machine

/-- The receiving side of a port: its assembler, its frames not yet taken, and CTS (R163, R165, R167). -/
def PortState.receiver (q : PortState) : Assembler × List Frame × Bool := (q.assembler, q.frames, q.cts)

/-- The receiving side of every port, and whether the reset input holds the part (R186). -/
def State.receivers (s : State) : Bool × (Port → Assembler × List Frame × Bool) := (s.held, fun p => (s.port p).receiver)

theorem receiver_eq_iff {q r : PortState} :
    r.receiver = q.receiver ↔ r.assembler = q.assembler ∧ r.frames = q.frames ∧ r.cts = q.cts := by
  simp [PortState.receiver]

theorem receivers_eq_iff {s t : State} :
    t.receivers = s.receivers ↔ t.held = s.held ∧ ∀ p, (t.port p).receiver = (s.port p).receiver := by
  simp [State.receivers, funext_iff]

/-! ### Updates of a port -/

@[simp] theorem post_receiver (q : PortState) (e : Event) : (q.post e).receiver = q.receiver := rfl

@[simp] theorem place_receiver (q : PortState) (r : Report) : (q.place r).receiver = q.receiver := by
  rw [PortState.place, post_receiver]
  split <;> rfl

@[simp] theorem handLine_receiver (q : PortState) (job copy line : Nat) : (q.handLine job copy line).receiver = q.receiver := by
  unfold PortState.handLine
  split <;> rfl

@[simp] theorem clearHeld_receiver (q : PortState) : q.clearHeld.receiver = q.receiver := by
  unfold PortState.clearHeld
  split <;> rfl

@[simp] theorem clearExhausted_receiver (q : PortState) : q.clearExhausted.receiver = q.receiver := by
  unfold PortState.clearExhausted
  split <;> rfl

@[simp] theorem queried_receiver (q : PortState) : q.queried.receiver = q.receiver := by
  unfold PortState.queried
  split <;> rfl

@[simp] theorem reportTaken_receiver (q : PortState) : q.reportTaken.receiver = q.receiver := by
  unfold PortState.reportTaken
  dsimp only
  split <;> rfl

/-! ### Updates of the state -/

/-- A state written out has the receiving sides of the one whose ports it has, held or not as that is. -/
@[simp] theorem mk_receivers (s : State) (pending : List Instr) (slots : Vector Slot 32) (counters : Vector (Option Counter) 8)
    (retained : Retained) (lost : Bool) (queue : List Job) (next : Nat) (redo : List RedoEntry) (pool : List PoolEntry) (ring : Ring)
    (hand : Option Hand) (labels : List LabelRecord) (profile : Option HeadProfile) (settings : Option RunSettings) (engine : Engine)
    (tick : Nat) :
    (State.mk pending s.held s.ports slots counters retained lost queue next redo pool ring hand labels profile settings engine
      tick).receivers = s.receivers := rfl

theorem onPort_receivers {p : Port} {f : PortState → PortState} (h : ∀ q, (f q).receiver = q.receiver) (s : State) :
    (s.onPort p f).receivers = s.receivers := by
  refine receivers_eq_iff.mpr ⟨rfl, fun q => ?_⟩
  by_cases same : p = q
  · rw [same, port_onPort_self, h]
  · rw [port_onPort_ne _ _ same]

theorem receivers_of_mapPorts {s t : State} {f : PortState → PortState} (ports : t.ports = mapVec f s.ports) (held : t.held = s.held)
    (h : ∀ q, (f q).receiver = q.receiver) : t.receivers = s.receivers :=
  receivers_eq_iff.mpr ⟨held, fun q => by rw [State.port, ports, Fin.getElem_fin, mapVec_getElem, h]; rfl⟩

@[simp] theorem settings_receivers (s : State) (p : Port) (t : PortSettings) :
    (s.onPort p fun q => { q with settings := t }).receivers = s.receivers := by
  rw [onPort_receivers]
  exact fun _ => rfl

@[simp] theorem watch_receivers (s : State) (p : Port) (w : Option PositionWatch) :
    (s.onPort p fun q => { q with watch := w }).receivers = s.receivers := by
  rw [onPort_receivers]
  exact fun _ => rfl

@[simp] theorem discard_receivers (s : State) (p : Port) (b : Bool) :
    (s.onPort p fun q => { q with discard := b }).receivers = s.receivers := by
  rw [onPort_receivers]
  exact fun _ => rfl

/-- A fold whose every step leaves the receiving sides leaves them. -/
theorem foldl_receivers {α : Type} {f : State → α → State} (h : ∀ (s : State) x, (f s x).receivers = s.receivers) (l : List α)
    (s : State) : (l.foldl f s).receivers = s.receivers :=
  foldl_keeps (fun s t => t.receivers = s.receivers) (fun _ => rfl) (fun h k => k.trans h) h l s

@[simp] theorem onEngine_receivers (s : State) (f : Engine → Engine) : (s.onEngine f).receivers = s.receivers := rfl
@[simp] theorem onJob_receivers (s : State) (n : Nat) (f : Job → Job) : (s.onJob n f).receivers = s.receivers := rfl
@[simp] theorem onBuffer_receivers (s : State) (i : Fin 8) (f : Buffer → Buffer) : (s.onBuffer i f).receivers = s.receivers := rfl
@[simp] theorem freeBuffer_receivers (s : State) (i : Fin 8) : (s.freeBuffer i).receivers = s.receivers := rfl
@[simp] theorem skipBand_receivers (s : State) : s.skipBand.receivers = s.receivers := rfl
@[simp] theorem takeDryBand_receivers (s : State) : s.takeDryBand.receivers = s.receivers := rfl
@[simp] theorem freeDryBand_receivers (s : State) (i : Fin 8) : (s.freeDryBand i).receivers = s.receivers := rfl
@[simp] theorem onHead_receivers (s : State) (j c : Nat) (f : HeadLabel → HeadLabel) : (s.onHead j c f).receivers = s.receivers := rfl
@[simp] theorem retainCounters_receivers (s : State) : s.retainCounters.receivers = s.receivers := rfl
@[simp] theorem retainScope_receivers (s : State) (scope : Scope) : (s.retainScope scope).receivers = s.receivers := rfl

@[simp] theorem setSlot_receivers (s : State) (n : Nat) (x : Slot) : (s.setSlot n x).receivers = s.receivers := by
  unfold State.setSlot
  split <;> rfl

@[simp] theorem retainForm_receivers (s : State) (n : Nat) (f : Option Form) : (s.retainForm n f).receivers = s.receivers := by
  unfold State.retainForm
  split <;> rfl

@[simp] theorem leaveQueue_receivers (s : State) (n : Nat) : (s.leaveQueue n).receivers = s.receivers :=
  receivers_of_mapPorts rfl rfl fun _ => rfl

/-! ### Replies, events and reports -/

@[simp] theorem reply_receivers (s : State) (p : Port) (kind : Byte) (c : ReplyCode) (d : List Byte) :
    (s.reply p kind c d).receivers = s.receivers := by
  rw [State.reply, onPort_receivers]
  exact fun _ => rfl

@[simp] theorem accept_receivers (s : State) (p : Port) (k : Kind) (d : List Byte) : (s.accept p k d).receivers = s.receivers :=
  reply_receivers ..

@[simp] theorem answer_receivers (s : State) (p : Port) (k : Kind) (c : ReplyCode) : (s.answer p k c).receivers = s.receivers :=
  reply_receivers ..

@[simp] theorem post_receivers (s : State) (p : Port) (e : Event) : (s.post p e).receivers = s.receivers := by
  rw [State.post, onPort_receivers fun q => post_receiver q e]

@[simp] theorem postAll_receivers (s : State) (e : Event) : (s.postAll e).receivers = s.receivers :=
  foldl_receivers (fun s p => post_receivers s p e) _ s

@[simp] theorem handLine_receivers (s : State) (j c y : Nat) : (s.handLine j c y).receivers = s.receivers :=
  receivers_of_mapPorts rfl rfl fun q => handLine_receiver q j c y

@[simp] theorem placeCompletion_receivers (s : State) (c : Completion) : (s.placeCompletion c).receivers = s.receivers := by
  refine foldl_receivers (fun s p => ?_) _ s
  split
  · exact onPort_receivers (fun q => place_receiver q _) s
  · rfl

@[simp] theorem refuseContribs_receivers (s : State) (gone : List PoolEntry) : (s.refuseContribs gone).receivers = s.receivers := by
  refine foldl_receivers (fun s p => ?_) _ s
  split
  · exact post_receivers ..
  · rfl

@[simp] theorem dropEntries_receivers (s : State) (out : PoolEntry → Bool) : (s.dropEntries out).receivers = s.receivers := by
  simp [State.dropEntries]

@[simp] theorem bandReport_receivers (s : State) (i : Fin 8) (r : BandRecord) : (s.bandReport i r).receivers = s.receivers := by
  unfold State.bandReport
  split
  · rfl
  · exact onPort_receivers (fun q => place_receiver q _) s

/-! ### Label ends and the flush -/

@[simp] theorem settle_receivers (s : State) : s.settle.receivers = s.receivers :=
  foldl_receivers (fun s (j : Job) => leaveQueue_receivers s j.number) _
    { s with labels := s.labels.filter fun l => s.holdsLabel l.job l.copy }

@[simp] theorem endLabel_receivers (s : State) (job copy : Nat) (o : LabelOutcome) (m : Bool) :
    (s.endLabel job copy o m).receivers = s.receivers := by
  unfold State.endLabel
  split
  · simp [apply_ite State.receivers, State.dropLabel]
  · rfl

@[simp] theorem endAtHead_receivers (s : State) (h : HeadLabel) (o : LabelOutcome) : (s.endAtHead h o).receivers = s.receivers := by
  simp [State.endAtHead]

@[simp] theorem endIfDue_receivers (s : State) (h : HeadLabel) : (s.endIfDue h).receivers = s.receivers := by
  unfold State.endIfDue
  split <;> split <;> simp

@[simp] theorem flush_receivers (s : State) (first : Option RedoEntry) : (s.flush first).receivers = s.receivers := by
  simp [State.flush]

@[simp] theorem endsAtStep_receivers (s : State) : s.endsAtStep.receivers = s.receivers := by
  unfold State.endsAtStep
  dsimp only
  split <;> simp [foldl_receivers]

/-! ### The engine's next work -/

theorem skipVoidFuel_receivers (n : Nat) (s : State) : (skipVoidFuel n s).receivers = s.receivers := by
  induction n generalizing s with
  | zero => rfl
  | succ n ih =>
    unfold skipVoidFuel
    split
    · split <;> simp [ih]
    · rfl

@[simp] theorem skipVoid_receivers (s : State) : s.skipVoid.receivers = s.receivers := skipVoidFuel_receivers 8 s

@[simp] theorem startBlank_receivers (s : State) : s.startBlank.receivers = s.receivers := by rw [startBlank_frame]; rfl
@[simp] theorem startLabelLine_receivers (s : State) (h : HeadLabel) : (s.startLabelLine h).receivers = s.receivers := by
  rw [startLabelLine_frame]; rfl
@[simp] theorem startMove_receivers (s : State) : s.startMove.receivers = s.receivers := by rw [startMove_frame]; rfl
@[simp] theorem outOfWork_receivers (s : State) : s.outOfWork.receivers = s.receivers := by rw [outOfWork_frame]; rfl

@[simp] theorem lookForWork_receivers (s : State) : s.lookForWork.receivers = s.receivers := by
  unfold State.lookForWork
  dsimp only
  split <;> simp

@[simp] theorem goOn_receivers (s : State) : s.goOn.receivers = s.receivers := by simp [State.goOn]

@[simp] theorem retract_receivers (s : State) : s.retract.receivers = s.receivers := by
  unfold State.retract
  split <;> simp

@[simp] theorem lookFromPresenting_receivers (s : State) : s.lookFromPresenting.receivers = s.receivers := by
  unfold State.lookFromPresenting
  dsimp only
  split
  · rfl
  · split <;> simp

@[simp] theorem present_receivers (s : State) : s.present.receivers = s.receivers := by simp [State.present]

@[simp] theorem backFeed_receivers (s : State) : s.backFeed.receivers = s.receivers := by
  unfold State.backFeed
  dsimp only
  split
  · split <;> simp
  · rfl

/-! ### Faults and dry run -/

@[simp] theorem enterFault_receivers (s : State) : s.enterFault.receivers = s.receivers := by
  simp [State.enterFault, foldl_receivers]

@[simp] theorem joinFaults_receivers (s : State) (f : FaultSet) : (s.joinFaults f).receivers = s.receivers := by
  unfold State.joinFaults
  dsimp only
  split <;> simp

theorem dryTakeFuel_receivers (n : Nat) (s : State) : (dryTakeFuel n s).receivers = s.receivers := by
  induction n generalizing s with
  | zero => rfl
  | succ n ih =>
    unfold dryTakeFuel
    split
    · rfl
    · split <;> simp [ih]

@[simp] theorem dryTake_receivers (s : State) : s.dryTake.receivers = s.receivers := by
  unfold State.dryTake
  split
  · exact dryTakeFuel_receivers 9 s
  · rfl

@[simp] theorem engineLook_receivers (s : State) : s.engineLook.receivers = s.receivers := by
  unfold State.engineLook
  split
  case h_2 =>
    split
    · split <;> simp
    · rfl
  all_goals simp

@[simp] theorem leaveFaults_receivers (s : State) (f : FaultSet) : (s.leaveFaults f).receivers = s.receivers := by
  unfold State.leaveFaults
  dsimp only
  split <;> simp

@[simp] theorem leaveDry_receivers (s : State) : s.leaveDry.receivers = s.receivers := by
  unfold State.leaveDry
  dsimp only
  split <;> simp [foldl_receivers]

@[simp] theorem dryNext_receivers (s : State) : s.dryNext.receivers = s.receivers := by
  unfold State.dryNext
  split <;> simp

@[simp] theorem consumeLine_receivers (s : State) : s.consumeLine.receivers = s.receivers := by
  unfold State.consumeLine
  split
  · split
    · rfl
    · simp [apply_ite State.receivers]
  · rfl

/-! ### A cancel, a FEED and the forward step -/

@[simp] theorem cancelInRing_receivers (s : State) (n : Nat) : (s.cancelInRing n).receivers = s.receivers := by
  unfold State.cancelInRing
  extract_lets dropped
  have drops : dropped.receivers = s.receivers := by
    unfold dropped
    split
    · split <;> rfl
    · rfl
  rw [← drops]
  exact receivers_of_mapPorts rfl rfl fun _ => rfl

@[simp] theorem cancelAtEngine_receivers (s : State) (n : Nat) : (s.cancelAtEngine n).receivers = s.receivers := by
  have dry : (s.dryCancel n).receivers = s.receivers := by
    unfold State.dryCancel
    split
    · simp
    · split <;> simp
  unfold State.cancelAtEngine
  split
  · exact dry
  · split <;> simp [apply_ite State.receivers]
  · split <;> simp [apply_ite State.receivers]
  · exact engineLook_receivers s

@[simp] theorem endLine_receivers (s : State) (l : Line) : (s.endLine l).receivers = s.receivers := by
  unfold State.endLine
  split
  · dsimp only
    split <;> simp [apply_ite State.receivers]
  · rfl

@[simp] theorem afterLabel_receivers (s : State) : s.afterLabel.receivers = s.receivers := by
  unfold State.afterLabel
  split
  · split <;> simp
  · simp

@[simp] theorem countSearch_receivers (s : State) : s.countSearch.receivers = s.receivers := by
  unfold State.countSearch
  split <;> simp

@[simp] theorem afterStep_receivers (s : State) (read : Bool) : (s.afterStep read).receivers = s.receivers := by
  unfold State.afterStep
  split
  case h_1 => rfl
  case h_4 => simp
  case h_2 | h_3 | h_5 => split <;> simp
  all_goals
    dsimp only
    split <;> simp [apply_ite State.receivers]

@[simp] theorem forwardStep_receivers (s : State) (gap : Bool) : (s.forwardStep gap).receivers = s.receivers := by
  have go (s : State) (l : Line) : (((s.motorSteps l gap).endLine l)).receivers = s.receivers := by simp [State.motorSteps]
  unfold State.forwardStep
  split
  case h_3 => rfl
  all_goals
    dsimp only
    split
    · simp [go]
    · split <;> simp [go]

end Sys2Proof.Machine
end

section
/-! PROOFS. The records and the events that leave the receiving side of the ports as it was: all but those that come by the lines
themselves. -/

namespace Sys2Proof.Machine

/-! ### The set-up and the forms -/

theorem takeHeadProfile_receivers (s : State) (p : Port) (h : HeadProfile) : (s.takeHeadProfile p h).receivers = s.receivers := by
  have load : (s.loadProfile h).receivers = s.receivers := by
    unfold State.loadProfile
    dsimp only
    split <;> simp
  unfold State.takeHeadProfile
  split
  · simp
  · split <;> simp [load]

theorem takeRunSettings_receivers (s : State) (p : Port) (r : Option RunSettings) : (s.takeRunSettings p r).receivers = s.receivers := by
  have load (r : RunSettings) : (s.loadSettings r).receivers = s.receivers := by
    unfold State.loadSettings
    dsimp only
    split
    · split <;> simp
    · rfl
  unfold State.takeRunSettings
  split
  · simp
  · simp
  · simp [apply_ite State.receivers, load]

theorem takeRetainScope_receivers (s : State) (p : Port) (scope : Option Scope) : (s.takeRetainScope p scope).receivers = s.receivers := by
  unfold State.takeRetainScope
  split <;> simp

theorem takePortSettings_receivers (s : State) (p : Port) (t : Option PortSettings) : (s.takePortSettings p t).receivers = s.receivers := by
  unfold State.takePortSettings
  split <;> simp

theorem takeFormBegin_receivers (s : State) (p : Port) (r : Option FormBegin) : (s.takeFormBegin p r).receivers = s.receivers := by
  unfold State.takeFormBegin
  split
  · simp
  · split
    · simp
    · split <;> simp [apply_ite State.receivers]

theorem takeFieldDef_receivers (s : State) (p : Port) (r : Option Field) : (s.takeFieldDef p r).receivers = s.receivers := by
  unfold State.takeFieldDef
  split <;> simp [apply_ite State.receivers]

theorem takeStencilDef_receivers (s : State) (p : Port) (r : StencilDef) : (s.takeStencilDef p r).receivers = s.receivers := by
  unfold State.takeStencilDef
  split <;> simp [apply_ite State.receivers]

theorem takeFormEnd_receivers (s : State) (p : Port) : (s.takeFormEnd p).receivers = s.receivers := by
  unfold State.takeFormEnd
  split <;> simp [apply_ite State.receivers]

theorem takeFormDelete_receivers (s : State) (p : Port) (n : Nat) : (s.takeFormDelete p n).receivers = s.receivers := by
  unfold State.takeFormDelete
  split
  · simp
  · split <;> simp [apply_ite State.receivers]

theorem takeFormQuery_receivers (s : State) (p : Port) (n : Nat) : (s.takeFormQuery p n).receivers = s.receivers := by
  unfold State.takeFormQuery
  split <;> simp

/-! ### The counters -/

theorem takeCounterSet_receivers (s : State) (p : Port) (r : CounterSet) : (s.takeCounterSet p r).receivers = s.receivers := by
  unfold State.takeCounterSet
  split
  · simp
  · split <;> simp [onPort_receivers, State.setCounter]

theorem takeCounterFree_receivers (s : State) (p : Port) (n : Nat) : (s.takeCounterFree p n).receivers = s.receivers := by
  unfold State.takeCounterFree
  split
  · simp
  · split <;> simp [apply_ite State.receivers]

theorem takeCounterQuery_receivers (s : State) (p : Port) (n : Nat) : (s.takeCounterQuery p n).receivers = s.receivers := by
  unfold State.takeCounterQuery
  split
  · simp
  · split <;> simp

@[simp] theorem drawOne_receivers (s : State) (c : CounterNo) : (s.drawOne c).receivers = s.receivers := by
  unfold State.drawOne
  split
  · rfl
  · simp [apply_ite State.receivers]

@[simp] theorem drawAll_receivers (s : State) (f : Form) : (s.drawAll f).receivers = s.receivers := by
  unfold State.drawAll
  split <;> simp [foldl_receivers]

@[simp] theorem drawFails_receivers (s : State) (j : Job) (c : CounterNo) : (s.drawFails j c).receivers = s.receivers := by
  unfold State.drawFails
  dsimp only
  split
  · split <;> simp
  · simp

/-! ### The jobs and the merge -/

@[simp] theorem sweepPool_receivers (s : State) (n : Nat) (f : Form) (key : Text) : (s.sweepPool n f key).receivers = s.receivers := by
  simp [State.sweepPool, State.mergeFilled]

theorem takeJobOpen_receivers (s : State) (p : Port) (r : Option JobOpen) : (s.takeJobOpen p r).receivers = s.receivers := by
  have opens (r : JobOpen) (f : Form) : (s.openJob p r f).receivers = s.receivers := by
    unfold State.openJob
    dsimp only
    split <;> simp
  unfold State.takeJobOpen
  split
  · simp
  · simp
  · split <;> simp [opens]

theorem takeFieldData_receivers (s : State) (p : Port) (n : Nat) (v : Text) : (s.takeFieldData p n v).receivers = s.receivers := by
  unfold State.takeFieldData
  split
  · simp
  · split <;> simp [apply_ite State.receivers]

theorem takeJobClose_receivers (s : State) (p : Port) : (s.takeJobClose p).receivers = s.receivers := by
  have close (j : Job) : (s.closeJob j).receivers = s.receivers := by
    unfold State.closeJob
    dsimp only
    split
    · simp
    · split <;> simp [State.startTimer]
  unfold State.takeJobClose
  split
  · simp
  · split <;> simp [close]

@[simp] theorem dropOpenJob_receivers (s : State) (p : Port) : (s.dropOpenJob p).receivers = s.receivers := by
  unfold State.dropOpenJob
  split <;> simp

@[simp] theorem dropDefining_receivers (s : State) (p : Port) : (s.dropDefining p).receivers = s.receivers := by
  unfold State.dropDefining
  split <;> simp

theorem takeJobHold_receivers (s : State) (p : Port) (n : Nat) : (s.takeJobHold p n).receivers = s.receivers := by
  unfold State.takeJobHold
  split <;> simp [apply_ite State.receivers]

theorem takeJobRelease_receivers (s : State) (p : Port) (n : Nat) : (s.takeJobRelease p n).receivers = s.receivers := by
  unfold State.takeJobRelease
  split <;> simp [apply_ite State.receivers]

theorem takeJobCancel_receivers (s : State) (p : Port) (n : Nat) : (s.takeJobCancel p n).receivers = s.receivers := by
  unfold State.takeJobCancel
  split <;> simp [State.cancelJob, apply_ite State.receivers]

theorem takeJobQuery_receivers (s : State) (p : Port) (n : Nat) : (s.takeJobQuery p n).receivers = s.receivers := by
  unfold State.takeJobQuery
  split
  · simp
  · split
    · simp [onPort_receivers]
    · split <;> simp [onPort_receivers]

theorem takeContribute_receivers (s : State) (p : Port) (r : Contribute) : (s.takeContribute p r).receivers = s.receivers := by
  have toJob (j : Job) : (s.contributeToJob p r j).receivers = s.receivers := by
    simp [State.contributeToJob, State.mergeFilled, apply_ite State.receivers]
  have toPool : (s.contributeToPool p r).receivers = s.receivers := by
    unfold State.contributeToPool
    split <;> simp [State.pooled, apply_ite State.receivers]
  unfold State.takeContribute
  split
  · simp
  · split
    · exact toJob _
    · exact toPool

theorem timerExpires_receivers (s : State) (n : Nat) : (s.timerExpires n).receivers = s.receivers := by
  have expire (j : Job) (policy : MergePolicy) : (s.expire j policy).receivers = s.receivers := by
    cases policy <;> simp [State.expire]
  unfold State.timerExpires
  split
  · rfl
  · split
    · rfl
    · split
      · exact expire ..
      · rfl

theorem idle_receivers (s : State) : s.idle.receivers = s.receivers := by
  unfold State.idle
  split
  · rfl
  · simp [State.poolSecond]

/-! ### The engine, the watches and the composer -/

theorem takeFeed_receivers (s : State) (p : Port) : (s.takeFeed p).receivers = s.receivers := by
  unfold State.takeFeed
  split <;> simp [State.startFeed]

theorem takeDryRunOn_receivers (s : State) (p : Port) : (s.takeDryRunOn p).receivers = s.receivers := by
  unfold State.takeDryRunOn
  split <;> simp [State.enterDry]

theorem takeDryRunOff_receivers (s : State) (p : Port) : (s.takeDryRunOff p).receivers = s.receivers := by
  unfold State.takeDryRunOff
  split <;> simp [State.askToLeaveDry, apply_ite State.receivers]

theorem takePositionWatch_receivers (s : State) (p : Port) (w : PositionWatch) : (s.takePositionWatch p w).receivers = s.receivers := by
  unfold State.takePositionWatch
  split
  · simp
  · split
    · simp
    · split <;> simp [apply_ite State.receivers]

theorem judgeReading_receivers (s : State) : s.judgeReading.receivers = s.receivers := by
  simp [State.judgeReading, apply_ite State.receivers]

theorem answerAsk_receivers (s : State) : s.answerAsk.receivers = s.receivers := by
  have start (j : Job) : (s.startCopy j).receivers = s.receivers := by
    unfold State.startCopy
    split
    · rfl
    · split <;> simp [State.beginLabel, apply_ite State.receivers]
  unfold State.answerAsk
  split
  · rfl
  · split
    · exact start _
    · rfl

theorem takeBuffer_receivers (s : State) : s.takeBuffer.receivers = s.receivers := by
  unfold State.takeBuffer
  split
  · rfl
  · split
    · split <;> rfl
    · rfl

@[simp] theorem finishFill_receivers (s : State) : s.finishFill.receivers = s.receivers := by
  unfold State.finishFill
  split
  · split
    · split
      · rfl
      · simp [apply_ite State.receivers]
    · rfl
  · rfl

theorem labelTaken_receivers (s : State) : s.labelTaken.receivers = s.receivers := by
  unfold State.labelTaken
  split <;> simp

end Sys2Proof.Machine
end

section
/-! PROOFS. The receive buffers hold no more than they can and CTS is right for them: at every byte received, every frame taken or discarded
and every reset, and so at every step (O58). -/

namespace Sys2Proof.Machine

/-! ### One port -/

/-- A port's buffer is sound and its CTS right for it (R165, R167). -/
def PortState.receives (q : PortState) : Prop := q.bufferSound ∧ q.ctsSound

theorem receives_of_receiver {q r : PortState} (same : r.receiver = q.receiver) (sound : q.receives) : r.receives := by
  obtain ⟨assembler, frames, cts⟩ := receiver_eq_iff.mp same
  simpa only [PortState.receives, PortState.bufferSound, PortState.ctsSound, PortState.heldBytes, assembler, frames, cts] using sound

@[simp] theorem refreshCts_heldBytes (q : PortState) : q.refreshCts.heldBytes = q.heldBytes := by
  simp only [PortState.heldBytes, refreshCts_assembler, refreshCts_frames]

theorem refreshCts_receives {q : PortState} (sound : q.bufferSound) : q.refreshCts.receives :=
  ⟨by simpa only [PortState.bufferSound, refreshCts_assembler, refreshCts_heldBytes] using sound, refreshCts_sound q⟩

theorem hunting_consistent : Assembler.hunting.consistent := ⟨le_rfl, fun _ => rfl, fun before => by cases before⟩

/-- A frame in assembly thrown away leaves room (R166). -/
theorem discardFrame_receives {q : PortState} (sound : q.bufferSound) : q.discardFrame.receives := by
  refine receives_of_receiver (post_receiver ..) (refreshCts_receives ⟨hunting_consistent, ?_⟩)
  have fits := sound.2
  simp only [PortState.heldBytes, Assembler.hunting] at fits ⊢
  omega

theorem timeout_receives {q : PortState} (sound : q.receives) : q.timeout.receives := by
  unfold PortState.timeout
  split
  · exact sound
  · exact discardFrame_receives sound.1

theorem takeFrame_receives {q : PortState} (sound : q.receives) : q.takeFrame.receives := by
  obtain ⟨⟨consistent, fits⟩, -⟩ := sound
  refine refreshCts_receives ⟨consistent, le_trans (Nat.add_le_add_left ?_ _) fits⟩
  exact ((List.tail_sublist q.frames).map Frame.size).sum_le_sum fun _ _ => Nat.zero_le _

/-- A port with its line reset holds nothing, with CTS raised (R163, R168). -/
theorem resetLine_receives (q : PortState) : q.resetLine.receives := by
  have empty : q.resetLine.heldBytes = 0 := rfl
  refine ⟨⟨hunting_consistent, Nat.zero_le _⟩, fun full => ?_, fun _ => rfl⟩
  rw [empty] at full
  exact absurd full (by decide)

/-! ### A byte received -/

/-- A byte that finds the buffer full leaves what it holds, or throws the frame in assembly away (R166, R167). -/
theorem overrun_receives {q : PortState} (sound : q.receives) (lost : Byte) : (q.overrun lost).receives := by
  unfold PortState.overrun
  split
  · exact sound
  next assembles =>
    split
    next a loses =>
      obtain ⟨⟨consistent, fits⟩, cts⟩ := sound
      have same : ({ q with assembler := a } : PortState).heldBytes = q.heldBytes := by
        simp only [PortState.heldBytes, (lose_held assembles loses).1]
      refine ⟨⟨lose_consistent assembles loses consistent, same ▸ fits⟩, ?_⟩
      simpa only [PortState.ctsSound, same] using cts
    next => exact discardFrame_receives sound.1

/-- A byte taken in takes one place of the buffer at most (R165, R167). -/
theorem take_held_le {a b : Assembler} {char : Byte} (takes : a.take char = .going b) : b.held ≤ a.held + 1 := by
  by_cases hunts : a.state = .hunt
  · simp only [Assembler.take, hunts] at takes
    split at takes <;> cases takes
    · exact Nat.le_add_left ..
    · exact Nat.le_add_right ..
  · exact (take_held hunts takes).1.le

/-- The check byte completes a frame of the bytes held, itself with them (R164, R165). -/
theorem take_complete {a : Assembler} {char : Byte} {f : Frame} (takes : a.take char = .complete f) (consistent : a.consistent) :
    f.size = a.held + 1 := by
  unfold Assembler.take at takes
  split at takes
  case h_1 | h_4 =>
    dsimp only at takes
    split at takes <;> cases takes
  case h_2 | h_3 | h_5 => cases takes
  case h_6 check =>
    split at takes
    next whole =>
      cases takes
      simp only [Bool.and_eq_true, Bool.not_eq_true'] at whole
      have passed := consistent.2.1 whole.2
      simp only [Assembler.passed, check] at passed
      simp only [Frame.size]
      omega
    next => cases takes

/-- A byte received keeps the buffer within its size and CTS right (R165 to R167). -/
theorem receive_receives {q : PortState} (sound : q.receives) (lost char : Byte) : (q.receive lost char).receives := by
  unfold PortState.receive
  split
  · exact overrun_receives sound lost
  next room =>
    obtain ⟨consistent, -⟩ := sound.1
    simp only [PortState.heldBytes, Nat.not_le] at room
    split
    next a takes =>
      refine refreshCts_receives ⟨take_consistent takes consistent, ?_⟩
      have := take_held_le takes
      simp only [PortState.heldBytes]
      omega
    next f takes =>
      refine refreshCts_receives ⟨hunting_consistent, ?_⟩
      have := take_complete takes consistent
      simp only [PortState.heldBytes, Assembler.hunting, List.map_append, List.sum_append, List.map_singleton, List.sum_singleton]
      omega
    next => exact discardFrame_receives sound.1

/-! ### Every port -/

/-- Every port's buffer is sound, and CTS right for it or dropped at every port of a part that is held (R167, R186). -/
def State.receives (s : State) : Prop := s.buffersSound ∧ s.ctsRight

theorem receives_of_running {s : State} (runs : s.held = false) : s.receives ↔ ∀ p, (s.port p).receives := by
  simp only [State.receives, State.buffersSound, State.ctsRight, runs, Bool.false_eq_true, if_false, PortState.receives, forall_and]

theorem receives_of_receivers {s t : State} (same : t.receivers = s.receivers) (sound : s.receives) : t.receives := by
  obtain ⟨held, ports⟩ := receivers_eq_iff.mp same
  cases runs : s.held with
  | false =>
    rw [receives_of_running runs] at sound
    exact (receives_of_running (held.trans runs)).mpr fun p => receives_of_receiver (ports p) (sound p)
  | true =>
    obtain ⟨buffers, dropped⟩ := sound
    simp only [State.ctsRight, runs, if_true] at dropped
    refine ⟨fun p => ?_, ?_⟩
    · obtain ⟨assembler, frames, -⟩ := receiver_eq_iff.mp (ports p)
      simpa only [PortState.bufferSound, PortState.heldBytes, assembler, frames] using buffers p
    · simp only [State.ctsRight, held, runs, if_true]
      exact fun p => (receiver_eq_iff.mp (ports p)).2.2.trans (dropped p)

/-- One port of a part that runs replaced by one that is sound. -/
theorem onPort_receives {s : State} (runs : s.held = false) {p : Port} {f : PortState → PortState}
    (keeps : (s.port p).receives → (f (s.port p)).receives) (sound : s.receives) : (s.onPort p f).receives := by
  rw [receives_of_running runs] at sound
  refine (receives_of_running (s := s.onPort p f) runs).mpr fun q => ?_
  by_cases same : p = q
  · subst same
    rw [port_onPort_self]
    exact keeps (sound p)
  · rw [port_onPort_ne _ _ same]
    exact sound q

theorem resetPort_receives {s : State} (runs : s.held = false) (p : Port) (sound : s.receives) : (s.resetPort p).receives := by
  have drops : ((s.dropOpenJob p).dropDefining p).receivers = s.receivers := by simp
  exact onPort_receives ((receivers_eq_iff.mp drops).1.trans runs) (fun _ => resetLine_receives _) (receives_of_receivers drops sound)

theorem stateReceive_receives {s : State} (runs : s.held = false) (p : Port) (char : Byte) (sound : s.receives) :
    (s.receive p char).receives := by
  have enters := onPort_receives runs (f := (·.receive (Config.lostByte s.freeTick) char)) (fun q => receive_receives q _ char) sound
    (p := p)
  unfold State.receive
  dsimp only
  split
  · exact receives_of_receivers rfl enters
  · exact enters

/-- The part held keeps its buffers, with CTS dropped at every port (R186). -/
theorem hold_receives {s : State} (sound : s.receives) : s.hold.receives := by
  have port (p : Port) : s.hold.port p = { s.port p with cts := false } := port_mapPorts s (fun q => { q with cts := false }) p
  refine ⟨fun p => ?_, ?_⟩
  · rw [port]
    exact sound.1 p
  · show ∀ p, (s.hold.port p).cts = false
    exact fun p => by rw [port]

/-- Every port after a power-up is in its reset state (R163, R186). -/
theorem powerUp_receives (s : State) (low lid : Bool) : (s.powerUp low lid).receives := by
  have fresh : PortState.reset.receives := resetLine_receives PortState.reset
  have on (r : Retained) (lost : Bool) : (s.powerOn r lost lid).receives := by
    refine (receives_of_running rfl).mpr fun p => ?_
    have port : (s.powerOn r lost lid).port p = PortState.reset := by simp [State.port, State.powerOn, State.reset]
    rwa [port]
  unfold State.powerUp
  split <;> exact on ..

/-! ### Every command -/

/-- A command's outcome keeps the buffers and CTS sound. -/
def State.ReceivesInto (s : State) (o : Host.Outcome State Fault Refusal) : Prop := ∀ t, o = .next t → s.receives → t.receives

theorem receivesInto_running {s : State} {f : State → State} (keeps : s.held = false → s.receives → (f s).receives) :
    s.ReceivesInto (s.running f) := by
  intro t next sound
  cases held : s.held with
  | true =>
    rw [running_of_held held] at next
    cases next
    exact sound
  | false =>
    rw [running_of_not_held held] at next
    cases next
    exact keeps held sound

theorem receivesInto_running_of_receivers {s : State} {f : State → State} (same : (f s).receivers = s.receivers) :
    s.ReceivesInto (s.running f) :=
  receivesInto_running fun _ => receives_of_receivers same

theorem receivesInto_takeRecord {s : State} {p : Port} {kind : Byte} {body : List Byte} {act : State → State}
    (keeps : ∀ t : State, t.held = false → t.receives → (act t).receives) : s.ReceivesInto (s.takeRecord p kind body act) := by
  refine receivesInto_running fun runs sound => ?_
  split
  · exact keeps _ runs (onPort_receives runs takeFrame_receives sound)
  · exact sound

theorem receivesInto_record {α : Type} {s : State} {p : Port} {k : Kind} {body : List Byte} {parse : List Byte → Option α}
    {act : α → State → State} (keeps : ∀ (r : α) (t : State), t.held = false → t.receives → (act r t).receives) :
    s.ReceivesInto (s.record p k body parse act) := by
  refine receivesInto_takeRecord fun t runs sound => ?_
  split
  · exact receives_of_receivers (reply_receivers ..) sound
  · exact keeps _ t runs sound

/-- A record whose block leaves the receiving sides. -/
theorem receivesInto_record_of_receivers {α : Type} {s : State} {p : Port} {k : Kind} {body : List Byte} {parse : List Byte → Option α}
    {act : α → State → State} (same : ∀ (r : α) (t : State), (act r t).receivers = t.receivers) :
    s.ReceivesInto (s.record p k body parse act) :=
  receivesInto_record fun r t _ => receives_of_receivers (same r t)

/-- Every command keeps the buffers and CTS sound. -/
theorem exec_receives (c : Instr) (s : State) : s.ReceivesInto (exec c s) := by
  cases c with
  | headProfile p => exact receivesInto_record_of_receivers fun r t => takeHeadProfile_receivers t p r
  | runSettings p => exact receivesInto_record_of_receivers fun r t => takeRunSettings_receivers t p r
  | retainScope p => exact receivesInto_record_of_receivers fun r t => takeRetainScope_receivers t p r
  | portSettings p => exact receivesInto_record_of_receivers fun r t => takePortSettings_receivers t p r
  | formBegin p => exact receivesInto_record_of_receivers fun r t => takeFormBegin_receivers t p r
  | fieldDef p => exact receivesInto_record_of_receivers fun r t => takeFieldDef_receivers t p r
  | stencilDef p => exact receivesInto_record_of_receivers fun r t => takeStencilDef_receivers t p r
  | formEnd p => exact receivesInto_record_of_receivers fun _ t => takeFormEnd_receivers t p
  | formDelete p => exact receivesInto_record_of_receivers fun r t => takeFormDelete_receivers t p r
  | formQuery p => exact receivesInto_record_of_receivers fun r t => takeFormQuery_receivers t p r
  | counterSet p => exact receivesInto_record_of_receivers fun r t => takeCounterSet_receivers t p r
  | counterFree p => exact receivesInto_record_of_receivers fun r t => takeCounterFree_receivers t p r
  | counterQuery p => exact receivesInto_record_of_receivers fun r t => takeCounterQuery_receivers t p r
  | jobOpen p => exact receivesInto_record_of_receivers fun r t => takeJobOpen_receivers t p r
  | fieldData p => exact receivesInto_record_of_receivers fun (r : Nat × Text) t => takeFieldData_receivers t p r.1 r.2
  | jobClose p => exact receivesInto_record_of_receivers fun _ t => takeJobClose_receivers t p
  | discard p =>
    unfold exec execDiscard
    exact receivesInto_record_of_receivers fun _ t => by simp
  | jobHold p => exact receivesInto_record_of_receivers fun r t => takeJobHold_receivers t p r
  | jobRelease p => exact receivesInto_record_of_receivers fun r t => takeJobRelease_receivers t p r
  | jobCancel p => exact receivesInto_record_of_receivers fun r t => takeJobCancel_receivers t p r
  | jobQuery p => exact receivesInto_record_of_receivers fun r t => takeJobQuery_receivers t p r
  | contribute p => exact receivesInto_record_of_receivers fun r t => takeContribute_receivers t p r
  | feed p => exact receivesInto_record_of_receivers fun _ t => takeFeed_receivers t p
  | dryRunOn p => exact receivesInto_record_of_receivers fun _ t => takeDryRunOn_receivers t p
  | dryRunOff p => exact receivesInto_record_of_receivers fun _ t => takeDryRunOff_receivers t p
  | positionWatch p => exact receivesInto_record_of_receivers fun w t => takePositionWatch_receivers t p w
  | engineQuery p =>
    unfold exec execEngineQuery
    exact receivesInto_record_of_receivers fun _ t => accept_receivers ..
  | vectorQuery p =>
    unfold exec execVectorQuery
    exact receivesInto_record_of_receivers fun _ t => (onPort_receivers queried_receiver _).trans (accept_receivers ..)
  | reportRead p =>
    unfold exec execReportRead
    exact receivesInto_record_of_receivers fun _ t => (onPort_receivers reportTaken_receiver _).trans (accept_receivers ..)
  | portReset p =>
    unfold exec execPortReset
    exact receivesInto_record fun _ t runs sound => receives_of_receivers (accept_receivers ..) (resetPort_receives runs p sound)
  | unknownKind p kind body =>
    show s.ReceivesInto (if (kindOf kind).isSome then .next s else _)
    split
    · exact fun t next sound => by cases next; exact sound
    · exact receivesInto_takeRecord fun t _ => receives_of_receivers (reply_receivers ..)
  | receiveByte p char error =>
    refine receivesInto_running (f := fun s => if error then s else s.receive p char) fun runs sound => ?_
    split
    · exact sound
    · exact stateReceive_receives runs p char sound
  | frameTimeout p =>
    exact receivesInto_running (f := (·.onPort p PortState.timeout)) fun runs => onPort_receives runs timeout_receives
  | lineBreak p => exact receivesInto_running (f := (·.resetPort p)) fun runs => resetPort_receives runs p
  | deviceResetAssert cut =>
    refine receivesInto_running (f := fun s => if cut then s.cutRewrite.hold else s.hold) fun _ sound => ?_
    split
    · refine hold_receives (receives_of_receivers ?_ sound)
      rw [(cutRewrite_frame s).1]
      rfl
    · exact hold_receives sound
  | powerUp low lid => exact fun t next _ => by cases next; exact powerUp_receives s low lid
  | sensorReading t v =>
    exact receivesInto_running_of_receivers (f := fun s => (s.storeReading t v).judgeReading) (judgeReading_receivers _)
  | lidSwitchOpen =>
    exact receivesInto_running_of_receivers (f := fun s => s.joinFaults (s.engine.faults.put .headOpen true)) (joinFaults_receivers ..)
  | lidSwitchClosed =>
    exact receivesInto_running_of_receivers (f := fun s => s.leaveFaults s.engine.faults.lidClosed) (leaveFaults_receivers ..)
  | composerAsk =>
    refine receivesInto_running_of_receivers ?_
    split
    · exact answerAsk_receivers s
    · rfl
  | bandTake => exact receivesInto_running_of_receivers (takeBuffer_receivers s)
  | bandFillComplete =>
    refine receivesInto_running_of_receivers ?_
    split
    · simp
    · rfl
  | mergeTimerExpiry n => exact receivesInto_running_of_receivers (f := (·.timerExpires n)) (timerExpires_receivers s n)
  | poolEntryDiscard key p field =>
    exact receivesInto_running_of_receivers (f := (·.discardEntry key p field)) (dropEntries_receivers ..)
  | forwardStep gap => exact receivesInto_running_of_receivers (f := (·.forwardStep gap)) (forwardStep_receivers s gap)
  | strobePhaseEnd | phaseGapEnd | dotClassTimeEnd | mergeTimerSecond =>
    simp only [exec, execStrobePhaseEnd, execPhaseGapEnd, execDotClassTimeEnd, execMergeTimerSecond]
    refine receivesInto_running_of_receivers ?_
    rfl
  | takenSensorSample =>
    refine receivesInto_running_of_receivers ?_
    split <;> rfl
  | labelTaken =>
    refine receivesInto_running_of_receivers ?_
    split
    · exact labelTaken_receivers s
    · rfl
  | backFeedStep => exact receivesInto_running_of_receivers (backFeed_receivers s)
  | dryLineConsumed => exact receivesInto_running_of_receivers (consumeLine_receivers s)

/-- Settles O58: the lines' own events keep each buffer within its size and bring CTS up to date; all else leaves the receiving sides. -/
theorem buffersAndCtsAreKept : Obligations.BuffersAndCtsAreKept := by
  intro s t next buffers cts
  unfold step at next
  split at next
  next =>
    cases next
    exact receives_of_receivers (idle_receivers s) ⟨buffers, cts⟩
  next c rest _ => exact exec_receives c { s with pending := rest } t next ⟨buffers, cts⟩

end Sys2Proof.Machine
end

section
/-! PROOFS. A frame is handed on as its record's own command (O3), and a record of a wrong length or an unknown kind is refused (O2). -/

namespace Sys2Proof.Machine

/-! ### Frames and their commands (R169 to R171) -/

theorem commandOfFrame_byte (k : Kind) (p : Port) (body : List Byte) : commandOfFrame p ⟨k.byte, body⟩ = commandOfKind k p body := by
  rw [commandOfFrame, kindOf_byte]

/-- A kind byte that is none of the kinds names none (R170). -/
theorem kindOf_none {kind : Byte} (unknown : ∀ k : Kind, k.byte ≠ kind) : kindOf kind = none :=
  List.find?_eq_none.mpr fun k _ => by simpa using unknown k

theorem commandOfFrame_unknown {kind : Byte} (unknown : kindOf kind = none) (p : Port) (body : List Byte) :
    commandOfFrame p ⟨kind, body⟩ = .unknownKind p kind body := by
  rw [commandOfFrame, unknown]

/-- Settles O3: a record of a known kind by its kind byte, another by its kind byte being none of theirs. -/
theorem frameNamesItsCommand : Obligations.FrameNamesItsCommand := by
  intro i p f wellFormed framed
  cases i with
  | unknownKind q kind body =>
    cases framed
    have unknown : (kindOf kind).isNone = true := (Bool.and_eq_true_iff.mp wellFormed).2
    exact commandOfFrame_unknown (Option.isNone_iff_eq_none.mp unknown) p body
  | receiveByte | frameTimeout | lineBreak | deviceResetAssert | powerUp | sensorReading | lidSwitchOpen | lidSwitchClosed | composerAsk
  | bandTake | bandFillComplete | mergeTimerExpiry | poolEntryDiscard | forwardStep | strobePhaseEnd | phaseGapEnd | dotClassTimeEnd
  | takenSensorSample | labelTaken | backFeedStep | dryLineConsumed | mergeTimerSecond => cases framed
  | _ =>
    cases framed
    exact commandOfFrame_byte ..

/-! ### Records refused (R170) -/

/-- The command of a record whose length is not what its kind's layout requires answers BAD-LENGTH (R170). -/
theorem exec_misfit {k : Kind} {p : Port} {body : List Byte} {s : State} (can : s.canTake p k.byte body)
    (misfit : k.lengthFits body = false) : exec (commandOfKind k p body) s = .next ((s.taken p).answer p k .badLength) := by
  cases k <;> dsimp only [commandOfKind, exec] <;> refine record_of_unparsed can ?_
  case stencilDef => exact if_neg (of_decide_eq_false misfit)
  case fieldDef =>
    have lengths : fieldDefLengths body = none := if_neg (by simpa [Kind.lengthFits] using misfit)
    rw [parseFieldDef, lengths, Option.map_none]
  case jobOpen | fieldData | contribute => exact if_neg (by simpa [Kind.lengthFits] using misfit)
  all_goals exact if_neg (ne_of_beq_false misfit)

/-- A port changed to what another function makes of it. -/
theorem onPort_congr {s : State} {p : Port} {f g : PortState → PortState} (same : f (s.port p) = g (s.port p)) :
    s.onPort p f = s.onPort p g := by
  rw [State.onPort, State.onPort, show f s.ports[p] = g s.ports[p] from same]

/-- Settles O2: by the kind's reader, which finds no record in such a body; and by the kind byte, which no kind has. -/
theorem unreadableRecordIsRefused : Obligations.UnreadableRecordIsRefused := by
  refine ⟨fun k p body s can misfit => exec_misfit can misfit, fun s p kind body unknown can => ?_⟩
  have exec_eq : exec (.unknownKind p kind body) s = .next ((s.taken p).reply p kind .unknownKind []) := by
    show (if (kindOf kind).isSome then _ else s.takeRecord p kind body _) = _
    rw [kindOf_none unknown, State.takeRecord, running_of_not_held can.1]
    simp only [Option.isSome_none, Bool.false_eq_true, if_false, can.2, if_true]
    rfl
  have sent : (((s.taken p).reply p kind .unknownKind []).port p).sent = (s.port p).sent ++ [.reply (kind ||| 0x80#8) [0x11#8]] := by
    rw [State.reply, port_onPort_self, State.taken, port_onPort_self, takeFrame_sent]
    rfl
  exact ⟨_, exec_eq, sent, onPort_congr (by rw [State.reply, port_onPort_self])⟩

end Sys2Proof.Machine
end

section
/-! PROOFS. PORT-SETTINGS and POSITION-WATCH read back and taken (O8). -/

namespace Sys2Proof.Machine

/-! ### PORT-SETTINGS (R172) -/

theorem flag1_eq_byte1 (b : Bool) : flag1 b = byte1 b.toNat := by cases b <;> rfl

theorem exists_five_of_length {α : Type} {l : List α} (five : l.length = 5) : ∃ a b c d e, l = [a, b, c, d, e] :=
  match l, five with
  | [a, b, c, d, e], _ => ⟨a, b, c, d, e, rfl⟩

/-- A sequence mode travels as the flag of FREE (R172, R173). -/
theorem choice2_sequence (m : SequenceMode) : choice2 (m == .free).toNat SequenceMode.strict .free = some m := by cases m <;> rfl

theorem combine_number (c : Combine) : c.number < 256 ∧ ([Combine.and, .or, .nand, .nor])[c.number]? = some c := by
  cases c <;> exact ⟨by decide, rfl⟩

/-- Port settings with patterns of five characters are read back (R172, R173). -/
theorem parsePortSettings_body {t : PortSettings} (five1 : t.filter1.pattern.length = 5) (five2 : t.filter2.pattern.length = 5) :
    parsePortSettings t.body = some (some t) := by
  obtain ⟨mask, stamp, sequence, attention, watch, ⟨pattern1, care1⟩, ⟨pattern2, care2⟩, combine⟩ := t
  obtain ⟨a1, b1, c1, d1, e1, rfl⟩ := exists_five_of_length five1
  obtain ⟨a2, b2, c2, d2, e2, rfl⟩ := exists_five_of_length five2
  obtain ⟨small, named⟩ := combine_number combine
  have body : PortSettings.body ⟨mask, stamp, sequence, attention, watch, ⟨[a1, b1, c1, d1, e1], care1⟩,
      ⟨[a2, b2, c2, d2, e2], care2⟩, combine⟩ =
      [BitVec.ofNat 8 mask.toNat, BitVec.ofNat 8 stamp.toNat, BitVec.ofNat 8 (sequence == .free).toNat, attention,
        BitVec.ofNat 8 watch.toNat, a1, b1, c1, d1, e1, BitVec.ofNat 8 care1.toNat, a2, b2, c2, d2, e2, BitVec.ofNat 8 care2.toNat,
        BitVec.ofNat 8 combine.number] := by
    simp only [PortSettings.body, flag1_eq_byte1]
    rfl
  have mask_lt := mask.isLt
  have stamp_lt := stamp.isLt
  have care1_lt := care1.isLt
  have care2_lt := care2.isLt
  rw [body, parsePortSettings, if_pos (by simp)]
  simp only [planesAt, flagAt, natAt_cons_zero, natAt_cons_succ, toNat_byte mask.toNat (by omega), toNat_byte stamp.toNat (by omega),
    toNat_byte care1.toNat (by omega), toNat_byte care2.toNat (by omega), toNat_byte combine.number (by omega),
    toNat_byte _ (show (sequence == .free).toNat ≤ 255 from (Bool.toNat_le _).trans (by decide)),
    toNat_byte _ (show watch.toNat ≤ 255 from (Bool.toNat_le _).trans (by decide)), choice2_sequence, choice2_toNat, named]
  simp [show mask.toNat < 16 from mask_lt, show stamp.toNat < 16 from stamp_lt, show care1.toNat < 32 from care1_lt,
    show care2.toNat < 32 from care2_lt, sliceAt]

/-! ### POSITION-WATCH (R182) -/

theorem parsePositionWatch_body {w : PositionWatch} (job : w.job ≤ 65535) (copy : w.copy ≤ 65535) (line : w.line ≤ 65535) :
    parsePositionWatch w.body = some w := by
  have body : w.body = byte2 w.job ++ (byte2 w.copy ++ (byte2 w.line ++ [])) := by simp [PositionWatch.body]
  rw [body, parsePositionWatch, if_pos (by simp)]
  simp only [nat2At_byte2_succ, nat2At_byte2 (show w.job < 65536 by omega), nat2At_byte2 (show w.copy < 65536 by omega),
    nat2At_byte2 (show w.line < 65536 by omega)]

/-- Job number 0 disarms the sender's watch (R182). -/
theorem takePositionWatch_zero (s : State) (p : Port) {w : PositionWatch} (zero : w.job = 0) :
    s.takePositionWatch p w = (s.onPort p fun q => { q with watch := none }).accept p .positionWatch [] := if_pos zero

/-- A copy and a line of a queued job arm the sender's watch (R182). -/
theorem takePositionWatch_armed {s : State} {w : PositionWatch} {j : Job} {f : Form} (p : Port) (queued : s.job? w.job = some j)
    (number : 1 ≤ w.job ∧ w.job ≤ 4095) (form : s.activeForm j.form = some f) (copy : 1 ≤ w.copy ∧ w.copy ≤ j.total)
    (total : j.total ≤ 999) (line : w.line < f.length) :
    s.takePositionWatch p w = (s.onPort p fun q => { q with watch := some w }).accept p .positionWatch [] := by
  have inForm : ¬ (j.total < w.copy ∨ (s.activeForm j.form).elim 0 Form.length ≤ w.line) := by
    rw [form, Option.elim_some]
    omega
  rw [State.takePositionWatch, if_neg (by omega), if_neg (by omega)]
  simp only [queued, if_neg inForm]

/-- Settles O8: both bodies are read back; POSITION-WATCH by whether its job number is 0. -/
theorem portSettingsAndWatchAreReplaced : Obligations.PortSettingsAndWatchAreReplaced := by
  refine ⟨fun s p t five1 five2 can => ?_, fun s p w can job copy line => ?_⟩
  · exact record_of_parsed (act := fun t s => s.takePortSettings p t) can (parsePortSettings_body five1 five2)
  · have read : exec (.positionWatch p w.body) s = .next ((s.taken p).takePositionWatch p w) :=
      record_of_parsed (act := fun w s => s.takePositionWatch p w) can (parsePositionWatch_body (by omega) copy line)
    refine ⟨fun zero => ?_, fun j f queued number form first last total inForm => ?_⟩
    · rw [read, takePositionWatch_zero _ p zero]
    · rw [read, takePositionWatch_armed (s := s.taken p) p queued ⟨number, job⟩ form ⟨first, last⟩ total inForm]

end Sys2Proof.Machine
end

section
/-! PROOFS. A port reset: what it drops, what the port is after it, and PORT-RESET, which takes its own frame first (O39). -/

namespace Sys2Proof.Machine

/-! ### The OPEN job and the form being defined (R20, R64) -/

theorem dropOpenJob_port (s : State) (p q : Port) : ∃ w, (s.dropOpenJob p).port q = { s.port q with watch := w } := by
  unfold State.dropOpenJob
  split
  · exact ⟨_, rfl⟩
  · exact ⟨_, leaveQueue_port ..⟩

theorem dropOpenJob_frame (s : State) (p : Port) :
    s.dropOpenJob p = { s with ports := (s.dropOpenJob p).ports, queue := (s.dropOpenJob p).queue } := by
  unfold State.dropOpenJob
  split <;> rfl

theorem setSlot_frame (s : State) (n : Nat) (x : Slot) : s.setSlot n x = { s with slots := (s.setSlot n x).slots } := by
  unfold State.setSlot
  split <;> rfl

theorem dropDefining_frame (s : State) (p : Port) : s.dropDefining p = { s with slots := (s.dropDefining p).slots } := by
  unfold State.dropDefining
  split
  · rfl
  · rw [setSlot_frame]

/-- The defining form is dropped of the slots alone. -/
theorem dropDefining_slots {s t : State} (same : t.slots = s.slots) (p : Port) : (t.dropDefining p).slots = (s.dropDefining p).slots := by
  have defining : t.definingSlot p = s.definingSlot p := by rw [State.definingSlot, State.definingSlot, same]
  unfold State.dropDefining
  rw [defining]
  split
  · exact same
  next n _ =>
    unfold State.setSlot
    split
    · simp only [same]
    · exact same

/-! ### The port reset (R168) -/

/-- A port reset, in parts: the ports and the queue as the OPEN job leaves them, the slots without the form, and the port renewed. -/
theorem resetPort_eq (s : State) (p : Port) :
    s.resetPort p = { s.dropOpenJob p with slots := (s.dropDefining p).slots }.onPort p PortState.resetLine := by
  rw [State.resetPort, dropDefining_frame, dropDefining_slots (s := s) (by rw [dropOpenJob_frame])]

theorem resetPort_queue (s : State) (p : Port) : (s.resetPort p).queue = (s.dropOpenJob p).queue := by rw [resetPort_eq]; rfl

theorem resetPort_slots (s : State) (p : Port) : (s.resetPort p).slots = (s.dropDefining p).slots := by rw [resetPort_eq]; rfl

theorem resetPort_frame (s : State) (p : Port) : s.resetPort p =
    { s with ports := (s.resetPort p).ports, queue := (s.resetPort p).queue, slots := (s.resetPort p).slots } := by
  rw [resetPort_eq, dropOpenJob_frame]
  rfl

theorem resetPort_port_self (s : State) (p : Port) :
    (s.resetPort p).port p = { PortState.reset with settings := (s.port p).settings, sent := (s.port p).sent } := by
  obtain ⟨w, port⟩ := dropOpenJob_port s p p
  rw [resetPort_eq, port_onPort_self]
  show ((s.dropOpenJob p).port p).resetLine = _
  rw [port]
  rfl

theorem resetPort_port_ne (s : State) {p q : Port} (other : q ≠ p) : (s.resetPort p).port q = (s.dropOpenJob p).port q := by
  rw [resetPort_eq, port_onPort_ne _ _ other.symm]
  rfl

theorem port_ext {v w : Vector PortState 4} (same : ∀ q : Port, v[q] = w[q]) : v = w :=
  Vector.ext fun i lt => same ⟨i, lt⟩

/-- A port reset makes nothing of a change of the port before it that leaves its settings and what it has sent. -/
theorem resetPort_onPort {s : State} {p : Port} {f : PortState → PortState} (settings : (f (s.port p)).settings = (s.port p).settings)
    (sent : (f (s.port p)).sent = (s.port p).sent) : (s.onPort p f).resetPort p = s.resetPort p := by
  have queue : ((s.onPort p f).dropOpenJob p).queue = (s.dropOpenJob p).queue := by
    unfold State.dropOpenJob
    rw [show (s.onPort p f).openJob? p = s.openJob? p from rfl]
    split <;> rfl
  have port (q : Port) (other : q ≠ p) : ((s.onPort p f).dropOpenJob p).port q = (s.dropOpenJob p).port q := by
    unfold State.dropOpenJob
    rw [show (s.onPort p f).openJob? p = s.openJob? p from rfl]
    split
    · exact port_onPort_ne s f other.symm
    · rw [leaveQueue_port, leaveQueue_port, port_onPort_ne s f other.symm]
  have ports : ((s.onPort p f).resetPort p).ports = (s.resetPort p).ports := port_ext fun q => by
    show ((s.onPort p f).resetPort p).port q = (s.resetPort p).port q
    by_cases same : q = p
    · rw [same, resetPort_port_self, resetPort_port_self, port_onPort_self, settings, sent]
    · rw [resetPort_port_ne _ same, resetPort_port_ne _ same, port q same]
  rw [resetPort_frame, ports, resetPort_queue, queue, resetPort_slots,
    dropDefining_slots (s := s) (t := s.onPort p f) rfl, resetPort_frame s, resetPort_queue s, resetPort_slots s]
  rfl

theorem exec_portReset {s : State} {p : Port} (can : s.canTake p Kind.portReset.byte []) :
    exec (.portReset p []) s = .next ((s.resetPort p).accept p .portReset []) := by
  have read : exec (.portReset p []) s = .next (((s.taken p).resetPort p).accept p .portReset []) :=
    record_of_parsed (act := fun _ s => (s.resetPort p).accept p .portReset []) (parse := parseEmpty) can rfl
  rw [read, State.taken, resetPort_onPort (takeFrame_settings _) (takeFrame_sent _)]

/-- Settles O39: by whether the port has an OPEN job and a form in DEFINING; the frame of PORT-RESET is renewed away with the port. -/
theorem portResetRenewsThePort : Obligations.PortResetRenewsThePort := by
  intro s p runs
  refine ⟨s.resetPort p, running_of_not_held runs (·.resetPort p), resetPort_port_self s p, fun q other => ?_,
    fun none => ⟨?_, fun q other => ?_⟩, fun j opened => ?_, fun none => ?_, fun n defining => ?_, resetPort_frame s p,
    exec_portReset⟩
  · rw [resetPort_port_ne s other]
    obtain ⟨w, port⟩ := dropOpenJob_port s p q
    rw [port]
  · rw [resetPort_queue, State.dropOpenJob, none]
  · rw [resetPort_port_ne s other, State.dropOpenJob, none]
  · rw [resetPort_queue, State.dropOpenJob, opened]
    rfl
  · rw [resetPort_slots, State.dropDefining, none]
  · obtain ⟨lo, hi, -⟩ := definingSlot_some defining
    have slot (m : Nat) : (s.resetPort p).slot m = (s.setSlot n .empty).slot m := by
      rw [State.slot, State.slot, resetPort_slots, State.dropDefining, defining]
    exact ⟨by rw [slot, slot_setSlot_self s lo hi], fun m other => by rw [slot, slot_setSlot_ne s other]⟩

end Sys2Proof.Machine
end

section
/-! PROOFS. A byte received at a port, by the state of its assembler and the room in its buffer, and the timeout of a frame (O5). -/

namespace Sys2Proof.Machine

/-! ### The port that receives, and the rest of the part -/

theorem exec_receiveByte {s : State} (runs : s.held = false) (p : Port) (b : Byte) :
    exec (.receiveByte p b false) s = .next (s.receive p b) := running_of_not_held runs (·.receive p b)

/-- What a byte received makes of its port; a lost byte uses a free value beside (R165, R167; log 12). -/
theorem receive_ports (s : State) (p : Port) (b : Byte) :
    (s.receive p b).ports = (s.onPort p (·.receive (Config.lostByte s.freeTick) b)).ports := by
  unfold State.receive
  dsimp only
  split <;> rfl

theorem receive_port_self (s : State) (p : Port) (b : Byte) :
    (s.receive p b).port p = (s.port p).receive (Config.lostByte s.freeTick) b := by
  rw [State.port, receive_ports]
  exact port_onPort_self s p _

theorem receive_port_ne (s : State) {p q : Port} (b : Byte) (other : q ≠ p) : (s.receive p b).port q = s.port q := by
  rw [State.port, receive_ports]
  exact port_onPort_ne s _ other.symm

theorem loses_of_room {q : PortState} (room : q.heldBytes < bufferSize) : q.loses = false := by
  simp [PortState.loses, Nat.not_le.mpr room]

theorem loses_of_hunt {q : PortState} (hunts : q.assembler.state = .hunt) : q.loses = false := by
  simp [PortState.loses, hunts]

theorem loses_of_full {q : PortState} (assembles : q.assembler.state ≠ .hunt) (full : bufferSize ≤ q.heldBytes) : q.loses = true := by
  simp [PortState.loses, full, assembles]

/-- A byte that is not lost touches its port alone. -/
theorem receive_of_kept {s : State} {p : Port} (kept : (s.port p).loses = false) (b : Byte) :
    s.receive p b = s.onPort p (·.receive (Config.lostByte s.freeTick) b) := by
  rw [State.receive, kept]
  rfl

/-- A byte that is lost uses a free value beside (log 12). -/
theorem receive_of_lost {s : State} {p : Port} (lost : (s.port p).loses = true) (b : Byte) :
    s.receive p b = { s with ports := (s.receive p b).ports, freeTick := s.freeTick + 1 } := by
  rw [State.receive, lost]
  rfl

/-- A port left as it was leaves the part as it was. -/
theorem onPort_of_same {s : State} {p : Port} {f : PortState → PortState} (same : f (s.port p) = s.port p) : s.onPort p f = s := by
  rw [State.onPort, show f s.ports[p] = s.ports[p] from same, Fin.getElem_fin, Vector.set_getElem_self]

/-! ### A port with room for the byte (R165, R166) -/

theorem receive_going {q : PortState} (room : q.heldBytes < bufferSize) {b : Byte} {a : Assembler}
    (takes : q.assembler.take b = .going a) (lost : Byte) : q.receive lost b = PortState.refreshCts { q with assembler := a } := by
  simp only [PortState.receive, if_neg (Nat.not_le.mpr room), takes]

theorem receive_complete {q : PortState} (room : q.heldBytes < bufferSize) {b : Byte} {f : Frame}
    (takes : q.assembler.take b = .complete f) (lost : Byte) :
    q.receive lost b = PortState.refreshCts { q with assembler := .hunting, frames := q.frames ++ [f] } := by
  simp only [PortState.receive, if_neg (Nat.not_le.mpr room), takes]

theorem receive_discarded {q : PortState} (room : q.heldBytes < bufferSize) {b : Byte} (takes : q.assembler.take b = .discarded)
    (lost : Byte) : q.receive lost b = q.discardFrame := by
  simp only [PortState.receive, if_neg (Nat.not_le.mpr room), takes]

/-- A check byte completes the frame where the sum is right and no byte was lost (R165, R166). -/
theorem take_check {a : Assembler} (check : a.state = .check) (b : Byte) :
    a.take b = if a.sum b % 256 = 0 ∧ a.overrun = false then .complete { kind := a.kind, body := a.body } else .discarded := by
  simp only [Assembler.take, check, Bool.and_eq_true, decide_eq_true_eq, Bool.not_eq_true']

/-! ### A frame discarded (R166) -/

/-- A port's frame in assembly thrown away: LINE-ERROR is posted, and of the port only the assembler, CTS and what the posting touches
have changed; no other port has. -/
def State.Discards (s t : State) (p : Port) : Prop :=
  Event.lineError.isIn (t.port p).pending = true ∧ (∀ x, x ≠ p → t.port x = s.port x) ∧
    t.port p = { s.port p with
      assembler := Assembler.hunting, cts := (t.port p).cts, pending := (t.port p).pending, armHeld := (t.port p).armHeld,
      armExhausted := (t.port p).armExhausted, sent := (t.port p).sent }

theorem discardFrame_frame (q : PortState) : q.discardFrame = { q with
    assembler := .hunting, cts := q.discardFrame.cts, pending := q.discardFrame.pending, armHeld := q.discardFrame.armHeld,
    armExhausted := q.discardFrame.armExhausted, sent := q.discardFrame.sent } := by
  simp only [PortState.discardFrame, PortState.post, PortState.setPending, PortState.refreshCts]

theorem lineError_discardFrame (q : PortState) : Event.lineError.isIn q.discardFrame.pending = true := by
  rw [PortState.discardFrame, isIn_post]
  simp

theorem discards_of_discardFrame {s t : State} {p : Port} (self : t.port p = (s.port p).discardFrame)
    (others : ∀ x, x ≠ p → t.port x = s.port x) : s.Discards t p := by
  refine ⟨by rw [self]; exact lineError_discardFrame _, others, ?_⟩
  rw [self]
  exact discardFrame_frame _

/-! ### A byte lost at a full buffer (R167) -/

/-- A port's frame in assembly with the overrun mark, in an assembler state, so many body bytes counted: of the port only the assembler has
changed, and it holds no more; no other port has. -/
def State.Marks (s t : State) (p : Port) (state : AssemblerState) (passed : Nat) : Prop :=
  (∀ x, x ≠ p → t.port x = s.port x) ∧ (t.port p).assembler.state = state ∧ (t.port p).assembler.overrun = true ∧
    (t.port p).assembler.held = (s.port p).assembler.held ∧ (t.port p).assembler.body.length = passed ∧
    t.port p = { s.port p with assembler := (t.port p).assembler }

theorem receive_full_going {q : PortState} (assembles : q.assembler.state ≠ .hunt) (full : bufferSize ≤ q.heldBytes) {lost : Byte}
    {a : Assembler} (loses : q.assembler.lose lost = .going a) (b : Byte) : q.receive lost b = { q with assembler := a } := by
  simp only [PortState.receive, if_pos full, PortState.overrun, if_neg assembles, loses]

theorem receive_full_discarded {q : PortState} (assembles : q.assembler.state ≠ .hunt) (full : bufferSize ≤ q.heldBytes) {lost : Byte}
    (loses : q.assembler.lose lost = .discarded) (b : Byte) : q.receive lost b = q.discardFrame := by
  simp only [PortState.receive, if_pos full, PortState.overrun, if_neg assembles, loses]

/-- A byte that finds the buffer full in HUNT changes nothing (R167). -/
theorem receive_full_hunt {q : PortState} (hunts : q.assembler.state = .hunt) (full : bufferSize ≤ q.heldBytes) (lost b : Byte) :
    q.receive lost b = q := by
  rw [PortState.receive, if_pos full, PortState.overrun, if_pos hunts]

/-- The assembler after a lost byte: at the next place, with the overrun mark, or it has none. -/
theorem lose_cases (a : Assembler) (lost : Byte) :
    (a.state = .kind → ∃ b, a.lose lost = .going b ∧ b.state = .lengthHigh ∧ b.body = a.body) ∧
    (a.state = .lengthHigh → ∃ b, a.lose lost = .going b ∧ b.state = .lengthLow ∧ b.body = a.body) ∧
    (a.state = .lengthLow → a.lose lost = .discarded ∨
      ∃ b, a.lose lost = .going b ∧ (b.state = .body ∨ b.state = .check) ∧ b.body = a.body) ∧
    (a.state = .body → ∃ b, a.lose lost = .going b ∧
      b.state = (if a.lengthHigh.toNat * 256 + a.lengthLow.toNat ≤ a.body.length + 1 then .check else .body) ∧
      b.body.length = a.body.length + 1) ∧
    (a.state = .check → a.lose lost = .discarded) := by
  refine ⟨fun h => ?_, fun h => ?_, fun h => ?_, fun h => ?_, fun h => ?_⟩ <;> simp only [Assembler.lose, Assembler.take, h]
  · exact ⟨_, rfl, rfl, rfl⟩
  · exact ⟨_, rfl, rfl, rfl⟩
  · by_cases fits : a.lengthHigh.toNat * 256 + lost.toNat ≤ 1024
    · simp only [Assembler.bodyLength, fits, if_true]
      refine .inr ⟨_, rfl, ?_, rfl⟩
      simp only [Assembler.afterBody]
      split <;> simp
    · simp only [Assembler.bodyLength, fits, if_false, true_or]
  · exact ⟨_, rfl, by simp [Assembler.afterBody, Assembler.bodyLength], by simp [Assembler.afterBody]⟩
  · simp

theorem marks_of_lost {s : State} {p : Port} {a : Assembler} (assembles : (s.port p).assembler.state ≠ .hunt)
    (full : bufferSize ≤ (s.port p).heldBytes) (loses : (s.port p).assembler.lose (Config.lostByte s.freeTick) = .going a) (b : Byte) :
    s.Marks (s.receive p b) p a.state a.body.length := by
  obtain ⟨held, overrun⟩ := lose_held assembles loses
  refine ⟨fun x other => receive_port_ne s b other, ?_⟩
  rw [receive_port_self, receive_full_going assembles full loses]
  exact ⟨rfl, overrun, held, rfl, rfl⟩

theorem discards_of_lost {s : State} {p : Port} (assembles : (s.port p).assembler.state ≠ .hunt)
    (full : bufferSize ≤ (s.port p).heldBytes) (loses : (s.port p).assembler.lose (Config.lostByte s.freeTick) = .discarded) (b : Byte) :
    s.Discards (s.receive p b) p :=
  discards_of_discardFrame (by rw [receive_port_self, receive_full_discarded assembles full loses]) fun _ => receive_port_ne s b

/-! ### The events of the line -/

/-- A start byte in HUNT begins a frame (R165). -/
theorem exec_start {s : State} {p : Port} (runs : s.held = false) (hunts : (s.port p).assembler = Assembler.hunting)
    (room : (s.port p).heldBytes < bufferSize) :
    exec (.receiveByte p 0x01#8 false) s = .next (s.onPort p fun q =>
      PortState.refreshCts { q with assembler := { Assembler.hunting with state := .kind, held := 1 } }) := by
  rw [exec_receiveByte runs, receive_of_kept (loses_of_room room)]
  exact congrArg Host.Outcome.next (onPort_congr (receive_going room (by rw [hunts]; rfl) _))

/-- Another byte in HUNT is dropped, and CTS is judged (R165, R167; log 31). -/
theorem exec_dropped {s : State} {p : Port} {b : Byte} (runs : s.held = false) (hunts : (s.port p).assembler = Assembler.hunting)
    (room : (s.port p).heldBytes < bufferSize) (other : b ≠ 0x01#8) :
    exec (.receiveByte p b false) s = .next (s.onPort p PortState.refreshCts) := by
  have drops : (s.port p).assembler.take b = .going (s.port p).assembler := by rw [hunts]; exact if_neg other
  rw [exec_receiveByte runs, receive_of_kept (loses_of_room room)]
  exact congrArg Host.Outcome.next (onPort_congr (receive_going room drops _))

/-- A timeout discards the frame in assembly (R166). -/
theorem exec_timeout {s : State} {p : Port} (runs : s.held = false) (assembles : (s.port p).assembler.state ≠ .hunt) :
    exec (.frameTimeout p) s = .next (s.onPort p PortState.discardFrame) := by
  have next : exec (.frameTimeout p) s = .next (s.onPort p PortState.timeout) := running_of_not_held runs (·.onPort p PortState.timeout)
  rw [next]
  exact congrArg Host.Outcome.next (onPort_congr (if_neg assembles))

/-- A length above 1,024 discards the frame (R165, R166). -/
theorem take_long {a : Assembler} {b : Byte} (low : a.state = .lengthLow) (long : 1024 < a.lengthHigh.toNat * 256 + b.toNat) :
    a.take b = .discarded := by
  simp only [Assembler.take, low, Assembler.bodyLength, if_neg (Nat.not_le.mpr long)]

theorem discards_of_take {s : State} {p : Port} {b : Byte} (room : (s.port p).heldBytes < bufferSize)
    (takes : (s.port p).assembler.take b = .discarded) : s.Discards (s.receive p b) p :=
  discards_of_discardFrame (by rw [receive_port_self, receive_discarded room takes]) fun _ => receive_port_ne s b

theorem receive_frame_of_room {s : State} {p : Port} (room : (s.port p).heldBytes < bufferSize) (b : Byte) :
    s.receive p b = { s with ports := (s.receive p b).ports } := by
  rw [receive_of_kept (loses_of_room room)]
  rfl

/-- Settles O5: by the state of the assembler, and by whether the buffer has room for the byte. -/
theorem lineEventsInHuntAndAtTimeout : Obligations.LineEventsInHuntAndAtTimeout := by
  refine ⟨fun s p b runs => running_of_not_held runs fun s => s, fun s p => exec_start, fun s p b => exec_dropped,
    fun s p runs assembles => ?_, fun s p b runs => ⟨fun low room long => ?_, fun check room => ?_, fun hunts full => ?_,
      fun assembles full => ?_⟩⟩
  · have port := port_onPort_self s p PortState.discardFrame
    have discards := discardFrame_frame (s.port p)
    refine ⟨_, exec_timeout runs assembles, ?_, ?_, ?_, fun q other => port_onPort_ne s _ other.symm, rfl⟩
    · rw [port, discards]
    · rw [port, discards]
    · rw [port]
      exact lineError_discardFrame _
  · exact ⟨_, exec_receiveByte runs p b, discards_of_take room (take_long low long), receive_frame_of_room room b⟩
  · have takes := take_check check b
    refine ⟨_, exec_receiveByte runs p b, receive_frame_of_room room b, fun broken => ?_,
      fun whole => ⟨fun x => receive_port_ne s b, ?_⟩⟩
    · exact discards_of_take room (takes.trans (if_neg broken))
    · rw [receive_port_self, receive_complete room (takes.trans (if_pos whole))]
      simp only [PortState.refreshCts]
  · rw [exec_receiveByte runs, receive_of_kept (loses_of_hunt hunts), onPort_of_same (receive_full_hunt hunts full _ b)]
  · obtain ⟨kind, high, low, body, check⟩ := lose_cases (s.port p).assembler (Config.lostByte s.freeTick)
    refine ⟨_, exec_receiveByte runs p b, receive_of_lost (loses_of_full assembles full) b, fun h => ?_, fun h => ?_, fun h => ?_,
      fun h => ?_, fun h => discards_of_lost assembles full (check h) b⟩
    · obtain ⟨a, loses, state, same⟩ := kind h
      exact state ▸ same ▸ marks_of_lost assembles full loses b
    · obtain ⟨a, loses, state, same⟩ := high h
      exact state ▸ same ▸ marks_of_lost assembles full loses b
    · obtain loses | ⟨a, loses, state | state, same⟩ := low h
      · exact .inl (discards_of_lost assembles full loses b)
      · exact .inr (.inl (state ▸ same ▸ marks_of_lost assembles full loses b))
      · exact .inr (.inr (state ▸ same ▸ marks_of_lost assembles full loses b))
    · obtain ⟨a, loses, state, length⟩ := body h
      exact state ▸ length ▸ marks_of_lost assembles full loses b

end Sys2Proof.Machine
end

section
/-! PROOFS. A frame sent byte by byte into a port in HUNT: the assembler place by place, its body by induction, and the check byte (O4). -/

namespace Sys2Proof.Machine

/-! ### The check byte (R164) -/

theorem byteSum_cons (b : Byte) (l : List Byte) : byteSum (b :: l) = b.toNat + byteSum l := by simp [byteSum]

theorem byteSum_append (l m : List Byte) : byteSum (l ++ m) = byteSum l + byteSum m := by simp [byteSum]

/-- The check byte makes the sum 0 modulo 256 (R164). -/
theorem sum_frameCheck (kind : Byte) (body : List Byte) :
    byteSum (kind :: (byte2 body.length ++ body) ++ [frameCheck kind body]) % 256 = 0 := by
  rw [byteSum_append, byteSum_cons (frameCheck kind body), frameCheck, BitVec.toNat_ofNat]
  simp only [byteSum, List.map_nil, List.sum_nil, List.cons_append]
  omega

/-! ### The assembler while a frame comes (R165) -/

/-- The assembler once the length of a frame is known and some of its body has come, none of it lost. -/
def Assembler.inFrame (kind : Byte) (body come : List Byte) : Assembler where
  state := if body.length ≤ come.length then .check else .body
  kind := kind
  lengthHigh := BitVec.ofNat 8 (body.length / 256)
  lengthLow := BitVec.ofNat 8 body.length
  body := come
  held := 4 + come.length
  overrun := false

/-- The length bytes of a frame are read back (R164). -/
theorem length_of_bytes {n : Nat} (fits : n ≤ 1024) : (BitVec.ofNat 8 (n / 256)).toNat * 256 + (BitVec.ofNat 8 n).toNat = n :=
  nat2At_byte2 (show n < 65536 by omega) []

/-- The last length byte taken: the body is to come, or the check byte at once. -/
theorem take_lengthLow {kind : Byte} {body : List Byte} (fits : body.length ≤ 1024) :
    Assembler.take { Assembler.hunting with
        state := .lengthLow, kind := kind, lengthHigh := BitVec.ofNat 8 (body.length / 256), held := 3 } (BitVec.ofNat 8 body.length) =
      .going (Assembler.inFrame kind body []) := by
  simp only [Assembler.take, Assembler.bodyLength, Assembler.afterBody, length_of_bytes fits, if_pos fits]
  rfl

/-- A body byte taken. -/
theorem take_body {kind : Byte} {body come : List Byte} (fits : body.length ≤ 1024) (more : come.length < body.length) (b : Byte) :
    (Assembler.inFrame kind body come).take b = .going (Assembler.inFrame kind body (come ++ [b])) := by
  simp only [Assembler.take, Assembler.inFrame, if_neg (Nat.not_le.mpr more), Assembler.afterBody, Assembler.bodyLength,
    length_of_bytes fits, List.length_append, List.length_singleton, Nat.add_assoc]

/-- The check byte taken: the frame is complete. -/
theorem take_frameCheck (kind : Byte) (body : List Byte) :
    (Assembler.inFrame kind body body).take (frameCheck kind body) = .complete { kind := kind, body := body } := by
  rw [take_check (if_pos le_rfl)]
  exact if_pos ⟨sum_frameCheck kind body, rfl⟩

/-! ### Bytes received one after the other -/

/-- Some bytes bring a port's assembler from one state to another and change nothing else but CTS. -/
def PortState.Assembles (q : PortState) (lost : Byte) (bytes : List Byte) (a b : Assembler) : Prop :=
  ∀ cts, ∃ cts',
    bytes.foldl (fun q b => q.receive lost b) { q with assembler := a, cts := cts } = { q with assembler := b, cts := cts' }

namespace PortState.Assembles

variable {q : PortState} {lost : Byte}

theorem nil (a : Assembler) : q.Assembles lost [] a a := fun cts => ⟨cts, rfl⟩

theorem append {l m : List Byte} {a b c : Assembler} (first : q.Assembles lost l a b) (second : q.Assembles lost m b c) :
    q.Assembles lost (l ++ m) a c := by
  intro cts
  obtain ⟨between, first⟩ := first cts
  obtain ⟨cts', second⟩ := second between
  exact ⟨cts', by rw [List.foldl_append, first, second]⟩

/-- A byte with room for it that the assembler goes on with. -/
theorem cons {x : Byte} {l : List Byte} {a b c : Assembler} (room : a.held + (q.frames.map Frame.size).sum < bufferSize)
    (takes : a.take x = .going b) (rest : q.Assembles lost l b c) : q.Assembles lost (x :: l) a c := by
  intro cts
  obtain ⟨cts', rest⟩ := rest (ctsFor (b.held + (q.frames.map Frame.size).sum) cts)
  refine ⟨cts', ?_⟩
  rw [List.foldl_cons, receive_going (q := { q with assembler := a, cts := cts }) room takes, ← rest]
  rfl

/-- The rest of a body received where some of it has come. -/
theorem body {kind : Byte} {body come rest : List Byte} (fits : body.length ≤ 1024) (whole : come ++ rest = body)
    (room : 4 + body.length + (q.frames.map Frame.size).sum < bufferSize) :
    q.Assembles lost rest (.inFrame kind body come) (.inFrame kind body body) := by
  induction rest generalizing come with
  | nil =>
    rw [List.append_nil] at whole
    exact whole ▸ nil _
  | cons b rest ih =>
    have length := congrArg List.length whole
    simp only [List.length_append, List.length_cons] at length
    refine cons ?_ (take_body fits (by omega) b) (ih (by rw [List.append_assoc]; exact whole))
    show 4 + come.length + _ < _
    omega

end PortState.Assembles

/-- All but the check byte of a frame received in HUNT. -/
theorem assembles_frame {q : PortState} {kind : Byte} {body : List Byte} (lost : Byte) (fits : body.length ≤ 1024)
    (room : 4 + body.length + (q.frames.map Frame.size).sum < bufferSize) :
    q.Assembles lost ([0x01#8, kind] ++ byte2 body.length ++ body) .hunting (.inFrame kind body body) := by
  have place (n : Nat) (low : n ≤ 4) : n + (q.frames.map Frame.size).sum < bufferSize := by omega
  refine .append ?_ (.body fits (List.nil_append body) room)
  refine .cons (place 0 (by decide)) rfl (.cons (place 1 (by decide)) rfl (.cons (place 2 (by decide)) rfl ?_))
  exact .cons (place 3 (by decide)) (take_lengthLow fits) (.nil _)

/-- Settles O4: all bytes but the last bring the assembler to the frame's check byte, and that completes the frame. -/
theorem frameSentIsFrameReceived : Obligations.FrameSentIsFrameReceived := by
  intro q kind lost body hunts fits room
  have sizes : q.heldBytes = (q.frames.map Frame.size).sum := by rw [PortState.heldBytes, hunts]; exact Nat.zero_add _
  have space : 4 + body.length + (q.frames.map Frame.size).sum < bufferSize := by
    show _ < 2048
    omega
  obtain ⟨cts, come⟩ := assembles_frame lost fits space q.cts
  have start : q = { q with assembler := .hunting, cts := q.cts } := by rw [← hunts]
  have complete :=
    receive_complete (q := { q with assembler := .inFrame kind body body, cts := cts }) space (take_frameCheck kind body) lost
  rw [frameBytes, List.foldl_append, start, come, List.foldl_cons, complete, List.foldl_nil]
  rfl

end Sys2Proof.Machine
end

section
/-! PROOFS. A record that its port answers at once: what the reply leaves of the port, and that nothing else changes. -/

namespace Sys2Proof.Machine

/-- A port that has taken its frame and answered ACCEPT (R169, R170). -/
def PortState.replied (q : PortState) (k : Kind) (data : List Byte) : PortState :=
  { q.takeFrame with sent := q.sent ++ [.reply (k.byte ||| 0x80#8) (ReplyCode.accept.byte :: data)] }

theorem taken_accept_port (s : State) (p : Port) (k : Kind) (data : List Byte) :
    ((s.taken p).accept p k data).port p = (s.port p).replied k data := by
  rw [accept_port, if_pos rfl, taken_port, if_pos rfl, takeFrame_sent, PortState.replied]

theorem taken_accept_port_ne (s : State) {p q : Port} (other : q ≠ p) (k : Kind) (data : List Byte) :
    ((s.taken p).accept p k data).port q = s.port q := by
  rw [accept_port, if_neg other.symm, taken_port, if_neg other.symm]

@[simp] theorem replied_pending (q : PortState) (k : Kind) (data : List Byte) : (q.replied k data).pending = q.pending :=
  takeFrame_pending q
@[simp] theorem replied_reports (q : PortState) (k : Kind) (data : List Byte) : (q.replied k data).reports = q.reports :=
  takeFrame_reports q
@[simp] theorem replied_settings (q : PortState) (k : Kind) (data : List Byte) : (q.replied k data).settings = q.settings :=
  takeFrame_settings q
@[simp] theorem replied_sent (q : PortState) (k : Kind) (data : List Byte) :
    (q.replied k data).sent = q.sent ++ [.reply (k.byte ||| 0x80#8) (ReplyCode.accept.byte :: data)] := rfl

/-- The part once a port has answered and then changed in itself alone. -/
def State.answers (s : State) (p : Port) (k : Kind) (data : List Byte) (f : PortState → PortState) : State :=
  ((s.taken p).accept p k data).onPort p f

theorem answers_port_self (s : State) (p : Port) (k : Kind) (data : List Byte) (f : PortState → PortState) :
    (s.answers p k data f).port p = f ((s.port p).replied k data) := by
  rw [State.answers, port_onPort_self, taken_accept_port]

theorem answers_port_ne (s : State) {p q : Port} (other : q ≠ p) (k : Kind) (data : List Byte) (f : PortState → PortState) :
    (s.answers p k data f).port q = s.port q := by
  rw [State.answers, port_onPort_ne _ _ other.symm, taken_accept_port_ne s other]

theorem answers_frame (s : State) (p : Port) (k : Kind) (data : List Byte) (f : PortState → PortState) :
    s.answers p k data f = { s with ports := (s.answers p k data f).ports } := rfl

end Sys2Proof.Machine
end

section
/-! PROOFS. The shown event, the attention byte and what a VECTOR-QUERY leaves pending (O36). -/

namespace Sys2Proof.Machine

/-! ### The shown event (R176) -/

/-- A priority names its event. -/
theorem event_at_priority (e : Event) : Event.all[e.priority - 1]? = some e := by cases e <;> rfl

theorem event_mem_all (e : Event) : e ∈ Event.all := List.mem_of_getElem? (event_at_priority e)

theorem priority_injective {e e' : Event} (same : e.priority = e'.priority) : e = e' :=
  Option.some.inj (by rw [← event_at_priority e, ← event_at_priority e', same])

theorem priority_pos (e : Event) : 0 < e.priority := by cases e <;> decide

/-- While an event is pending, one is shown (R176). -/
theorem exists_shown {set : EventSet} {e : Event} (pending : e.isIn set = true) : ∃ x, shownEvent set = some x := by
  rw [← Option.ne_none_iff_exists']
  exact fun none => absurd pending (Bool.eq_false_iff.mp (shownEvent_none none e))

/-- The event of the vector is the pending one of highest priority (R176). -/
theorem shownEvent_eq_some_iff {set : EventSet} {e : Event} :
    shownEvent set = some e ↔ e.isIn set = true ∧ ∀ e' : Event, e'.isIn set = true → e'.priority ≤ e.priority := by
  refine ⟨shownEvent_some, fun ⟨pending, highest⟩ => ?_⟩
  obtain ⟨x, shown⟩ := exists_shown pending
  obtain ⟨pending', highest'⟩ := shownEvent_some shown
  rw [shown, priority_injective (Nat.le_antisymm (highest x pending') (highest' e pending))]

theorem shownNumber_of_some {set : EventSet} {e : Event} (shown : shownEvent set = some e) : shownNumber set = e.priority := by
  rw [shownNumber, shown, Option.elim_some]

/-- The vector reads an event's priority just where that event is shown (R176). -/
theorem shownNumber_eq_priority_iff {set : EventSet} {e : Event} : shownNumber set = e.priority ↔ shownEvent set = some e := by
  refine ⟨fun same => ?_, shownNumber_of_some⟩
  cases shown : shownEvent set with
  | none =>
    rw [shownNumber, shown] at same
    exact absurd same (priority_pos e).ne
  | some x => rw [priority_injective ((shownNumber_of_some shown).symm.trans same)]

/-- The vector reads 0, or the priority of a pending event (R176). -/
theorem shownNumber_cases (set : EventSet) : shownNumber set = 0 ∨ ∃ e : Event, e.priority = shownNumber set ∧ e.isIn set = true := by
  cases shown : shownEvent set with
  | none => exact .inl (by rw [shownNumber, shown, Option.elim_none])
  | some e => exact .inr ⟨e, (shownNumber_of_some shown).symm, (shownEvent_some shown).1⟩

/-- No pending event has a priority above what the vector reads (R176). -/
theorem priority_le_shownNumber {set : EventSet} {e : Event} (pending : e.isIn set = true) : e.priority ≤ shownNumber set := by
  obtain ⟨x, shown⟩ := exists_shown pending
  rw [shownNumber_of_some shown]
  exact (shownEvent_some shown).2 e pending

/-! ### The attention byte (R177) -/

/-- An attention byte falls due where another event than before is shown, and it is enabled (R177). -/
theorem needsAttention_iff {enables old new : EventSet} :
    needsAttention enables old new = true ↔
      ∃ e : Event, shownEvent new = some e ∧ shownEvent old ≠ some e ∧ e.isIn enables = true := by
  unfold needsAttention
  cases shownEvent new <;> simp

theorem setPending_sent (q : PortState) (new : EventSet) :
    (q.setPending new).sent = q.sent ++ if needsAttention q.settings.attention q.pending new = true then [.attention] else [] := by
  unfold PortState.setPending
  split <;> simp

/-- An added event above all that are pending is the one shown. -/
theorem shownEvent_addTo_of_above {set : EventSet} {e : Event} (above : ∀ e' : Event, e'.isIn set = true → e'.priority < e.priority) :
    shownEvent (e.addTo set) = some e := by
  refine shownEvent_eq_some_iff.mpr ⟨by simp, fun e' pending => ?_⟩
  rw [isIn_addTo, Bool.or_eq_true, decide_eq_true_eq] at pending
  obtain pending | rfl := pending
  · exact (above e' pending).le
  · exact le_rfl

/-- An added event that is not above the shown one leaves it shown. -/
theorem shownEvent_addTo_of_shown {set : EventSet} {e x : Event} (shown : shownEvent set = some x) (below : e.priority ≤ x.priority) :
    shownEvent (e.addTo set) = some x := by
  obtain ⟨pending, highest⟩ := shownEvent_some shown
  refine shownEvent_eq_some_iff.mpr ⟨by simp [pending], fun e' pending' => ?_⟩
  rw [isIn_addTo, Bool.or_eq_true, decide_eq_true_eq] at pending'
  obtain pending' | rfl := pending'
  · exact highest e' pending'
  · exact below

/-- A post sends an attention byte where its event is above all pending ones, and enabled (R177). -/
theorem needsAttention_addTo_iff {enables set : EventSet} {e : Event} : needsAttention enables set (e.addTo set) = true ↔
    (∀ e' ∈ Event.all, e'.isIn set = true → e'.priority < e.priority) ∧ e.isIn enables = true := by
  rw [needsAttention_iff]
  constructor
  · rintro ⟨x, shown, changed, enabled⟩
    have above : ∀ e' ∈ Event.all, e'.isIn set = true → e'.priority < e.priority := by
      intro e' _ pending
      by_contra below
      obtain ⟨y, old⟩ := exists_shown pending
      have highest := (shownEvent_some old).2 e' pending
      have same := (shownEvent_addTo_of_shown old (by omega)).symm.trans shown
      exact changed (old.trans same)
    have self := shownEvent_addTo_of_above fun e' => above e' (event_mem_all e')
    exact ⟨above, Option.some.inj (shown.symm.trans self) ▸ enabled⟩
  · rintro ⟨above, enabled⟩
    refine ⟨e, shownEvent_addTo_of_above fun e' => above e' (event_mem_all e'), fun old => ?_, enabled⟩
    exact lt_irrefl _ (above e (event_mem_all e) (shownEvent_some old).1)

theorem post_sent (q : PortState) (e : Event) : (q.post e).sent = q.sent ++
    if (∀ e' ∈ Event.all, e'.isIn q.pending = true → e'.priority < e.priority) ∧ e.isIn q.settings.attention = true
    then [.attention] else [] := by
  simp only [PortState.post, setPending_sent, needsAttention_addTo_iff]

/-- The clear of the shown event sends an attention byte where the event it brings to show is enabled (R177, R178). -/
theorem needsAttention_removeFrom_iff {enables set : EventSet} {e : Event} (shown : shownEvent set = some e) :
    needsAttention enables set (e.removeFrom set) = true ↔
      ∃ e' : Event, shownEvent (e.removeFrom set) = some e' ∧ e'.isIn enables = true := by
  rw [needsAttention_iff]
  refine exists_congr fun e' => and_congr_right fun next => and_iff_right fun old => ?_
  have gone : e'.isIn (e.removeFrom set) = false := by simp [Option.some.inj (shown.symm.trans old)]
  exact absurd (shownEvent_some next).1 (Bool.eq_false_iff.mp gone)

/-! ### VECTOR-QUERY (R178) -/

/-- Whether a shown event stays when the vector is read: REPORT-WAITING goes with the last report, and the clears of JOB-HELD and
COUNTER-EXHAUSTED are only armed (R178). -/
abbrev Event.outlastsQuery (e : Event) : Prop := e = .reportWaiting ∨ e = .jobHeld ∨ e = .counterExhausted

/-- What reading the vector does to a port: the shown event is cleared, or the arms alone change. -/
theorem queried_cases (q : PortState) :
    (∃ e, shownEvent q.pending = some e ∧ ¬ e.outlastsQuery ∧ q.queried = q.clearEvent e) ∨
    ∃ held exhausted, q.queried = { q with armHeld := held, armExhausted := exhausted } ∧
      ∀ e, shownEvent q.pending = some e → e.outlastsQuery := by
  unfold PortState.queried
  cases shown : shownEvent q.pending with
  | none => exact .inr ⟨_, _, rfl, fun _ => nofun⟩
  | some e =>
    cases e with
    | reportWaiting => exact .inr ⟨_, _, rfl, by rintro _ ⟨⟩; exact .inl rfl⟩
    | jobHeld => exact .inr ⟨_, _, rfl, by rintro _ ⟨⟩; exact .inr (.inl rfl)⟩
    | counterExhausted => exact .inr ⟨_, _, rfl, by rintro _ ⟨⟩; exact .inr (.inr rfl)⟩
    | engineReady | contribRefused | positionReached | lineError | engineFault =>
      exact .inl ⟨_, rfl, by simp [Event.outlastsQuery], rfl⟩

/-- What is pending once the vector is read (R178). -/
theorem isIn_queried (q : PortState) (e : Event) : e.isIn q.queried.pending =
    (e.isIn q.pending &&
      decide (e.priority ≠ shownNumber q.pending ∨ e = .reportWaiting ∨ e = .jobHeld ∨ e = .counterExhausted)) := by
  obtain ⟨x, shown, cleared, after⟩ | ⟨_, _, after, stays⟩ := queried_cases q
  · rw [after, PortState.clearEvent]
    show e.isIn (x.removeFrom q.pending) = _
    rw [isIn_removeFrom, shownNumber_of_some shown]
    congr 2
    refine propext ⟨fun other => .inl fun same => other (priority_injective same), ?_⟩
    rintro (other | outlasts) rfl
    · exact other rfl
    · exact cleared outlasts
  · have kept : e.priority ≠ shownNumber q.pending ∨ e.outlastsQuery := by
      by_cases same : shownNumber q.pending = e.priority
      · exact .inr (stays e (shownNumber_eq_priority_iff.mp same))
      · exact .inl (Ne.symm same)
    rw [after, decide_eq_true kept, Bool.and_true]

/-- The attention byte of a read vector: where it clears an event and the one it brings to show is enabled (R177, R178). -/
theorem queried_sent (q : PortState) : ∃ tail : List Sent, q.queried.sent = q.sent ++ tail ∧ (tail = [.attention] ∨ tail = []) ∧
    (tail = [.attention] ↔ q.queried.pending ≠ q.pending ∧
      ∃ e : Event, e.isIn q.queried.pending = true ∧ e.isIn q.settings.attention = true ∧
        ∀ e' : Event, e'.isIn q.queried.pending = true → e'.priority ≤ e.priority) := by
  obtain ⟨x, shown, -, after⟩ | ⟨_, _, after, -⟩ := queried_cases q
  · have changed : (q.clearEvent x).pending ≠ q.pending := fun same => by
      have gone : x.isIn (q.clearEvent x).pending = false := by simp [PortState.clearEvent, PortState.setPending]
      exact absurd (shownEvent_some shown).1 (Bool.eq_false_iff.mp (same ▸ gone))
    have due : needsAttention q.settings.attention q.pending (x.removeFrom q.pending) = true ↔
        ∃ e : Event, e.isIn (q.clearEvent x).pending = true ∧ e.isIn q.settings.attention = true ∧
          ∀ e' : Event, e'.isIn (q.clearEvent x).pending = true → e'.priority ≤ e.priority :=
      (needsAttention_removeFrom_iff shown).trans (exists_congr fun e => by
        rw [shownEvent_eq_some_iff, and_right_comm, and_assoc]
        rfl)
    rw [after, and_iff_right changed, ← due]
    exact ⟨_, setPending_sent q _, ite_eq_or_eq .., by simp⟩
  · refine ⟨[], ?_, .inr rfl, nofun, fun ⟨changed, _⟩ => absurd ?_ changed⟩
    · rw [after, List.append_nil]
    · rw [after]

theorem queried_armHeld {q : PortState} (shown : shownNumber q.pending = Event.jobHeld.priority) : q.queried.armHeld = true := by
  rw [PortState.queried, shownNumber_eq_priority_iff.mp shown]

theorem queried_armExhausted {q : PortState} (shown : shownNumber q.pending = Event.counterExhausted.priority) :
    q.queried.armExhausted = true := by
  rw [PortState.queried, shownNumber_eq_priority_iff.mp shown]

theorem exec_vectorQuery {s : State} {p : Port} (can : s.canTake p Kind.vectorQuery.byte []) :
    exec (.vectorQuery p []) s = .next (s.answers p .vectorQuery (s.port p).vectorReport PortState.queried) := by
  have read : exec (.vectorQuery p []) s =
      .next (((s.taken p).accept p .vectorQuery ((s.taken p).port p).vectorReport).onPort p PortState.queried) :=
    record_of_parsed (act := fun _ s => (s.accept p .vectorQuery (s.port p).vectorReport).onPort p PortState.queried)
      (parse := parseEmpty) can rfl
  have report : ((s.taken p).port p).vectorReport = (s.port p).vectorReport := by
    rw [taken_port, if_pos rfl, PortState.vectorReport, takeFrame_pending, takeFrame_reports, PortState.vectorReport]
  rw [read, report, State.answers]

/-- Settles O36: a post by the event it puts on show; VECTOR-QUERY replies first, and then the port is read. -/
theorem vectorShowsTheHighestEvent : Obligations.VectorShowsTheHighestEvent := by
  refine ⟨fun q e => ⟨isIn_post q e, post_sent q e⟩, fun s p can _ => ?_⟩
  obtain ⟨tail, sent, bytes, due⟩ := queried_sent ((s.port p).replied .vectorQuery (s.port p).vectorReport)
  have port := answers_port_self s p .vectorQuery (s.port p).vectorReport PortState.queried
  have isIn := isIn_queried ((s.port p).replied .vectorQuery (s.port p).vectorReport)
  rw [replied_pending] at due isIn
  rw [replied_settings] at due
  rw [replied_sent, List.append_assoc] at sent
  refine ⟨_, shownNumber (s.port p).pending, exec_vectorQuery can, shownNumber_cases _, fun e => priority_le_shownNumber,
    ⟨tail, ?_, bytes, ?_⟩, ?_, fun held => ?_, fun exhausted => ?_, fun q other => answers_port_ne s other .., answers_frame ..⟩
  · rw [port]
    exact sent
  · rw [port]
    exact due
  · rw [port]
    exact isIn
  · rw [port]
    exact queried_armHeld (by rw [replied_pending, held])
  · rw [port]
    exact queried_armExhausted (by rw [replied_pending, exhausted])

end Sys2Proof.Machine
end

section
/-! PROOFS. Reports placed and read, and the bytes of the two reports (O37). -/

namespace Sys2Proof.Machine

/-! ### A report placed (R179) -/

/-- The newest twelve of a bounded list and one more report: a full list loses its oldest (R179). -/
theorem newest_concat_of_bounded {l : List Report} (few : l.length ≤ 12) (r : Report) :
    newest (l ++ [r]) = (if l.length = 12 then l.drop 1 else l) ++ [r] := by
  split
  next full => rw [newest, List.length_append, full, List.length_singleton, List.drop_append_of_le_length (by omega)]
  next => exact newest_of_few (by rw [List.length_append, List.length_singleton]; omega)

theorem place_displaced {q : PortState} (few : q.reports.length ≤ 12) (r : Report) :
    (q.place r).displaced = (q.displaced || decide (q.reports.length = 12)) := by
  rw [PortState.place, portPost_displaced]
  split
  next room => rw [decide_eq_false (by omega), Bool.or_false]
  next full => rw [decide_eq_true (by omega), Bool.or_true]

theorem place_reportWaiting (q : PortState) (r : Report) : Event.reportWaiting.isIn (q.place r).pending = true := by
  rw [PortState.place, isIn_post, decide_eq_true rfl, Bool.or_true]

/-! ### REPORT-READ (R180) -/

theorem exec_reportRead {s : State} {p : Port} (can : s.canTake p Kind.reportRead.byte []) :
    exec (.reportRead p []) s = .next (s.answers p .reportRead (s.port p).readReport PortState.reportTaken) := by
  have read : exec (.reportRead p []) s =
      .next (((s.taken p).accept p .reportRead ((s.taken p).port p).readReport).onPort p PortState.reportTaken) :=
    record_of_parsed (act := fun _ s => (s.accept p .reportRead (s.port p).readReport).onPort p PortState.reportTaken)
      (parse := parseEmpty) can rfl
  have report : ((s.taken p).port p).readReport = (s.port p).readReport := by
    rw [taken_port, if_pos rfl, PortState.readReport, takeFrame_displaced, takeFrame_reports, PortState.readReport]
  rw [read, report, State.answers]

theorem readReport_cons {q : PortState} {r : Report} {rest : List Report} (reports : q.reports = r :: rest) :
    q.readReport = flag1 q.displaced ++ byte1 rest.length ++ [1#8] ++ r.bytes := by
  rw [PortState.readReport, reports, List.append_assoc _ [1#8]]
  rfl

theorem readReport_nil {q : PortState} (empty : q.reports = []) : q.readReport = flag1 q.displaced ++ [0#8, 0#8] := by
  rw [PortState.readReport, empty, List.append_assoc]
  rfl

/-- A read of an empty list, or one that leaves a report on it, clears no event (R179). -/
theorem reportTaken_of_ne_one {q : PortState} (count : q.reports.length ≠ 1) :
    q.reportTaken = { q with reports := q.reports.tail, displaced := false } := if_neg count

/-- Reading the last report clears REPORT-WAITING (R179). -/
theorem reportTaken_of_one {q : PortState} (count : q.reports.length = 1) :
    q.reportTaken = { q with reports := q.reports.tail, displaced := false }.clearEvent .reportWaiting := if_pos count

theorem reportTaken_displaced (q : PortState) : q.reportTaken.displaced = false := by
  by_cases count : q.reports.length = 1
  · rw [reportTaken_of_one count, clearEvent_displaced]
  · rw [reportTaken_of_ne_one count]

/-- What is sent once a report is read: an attention byte at most, and that with the last report only (R177, R179). -/
theorem reportTaken_sent {q : PortState} {r : Report} {rest : List Report} (reports : q.reports = r :: rest) :
    ∃ tail : List Sent, q.reportTaken.sent = q.sent ++ tail ∧ (rest ≠ [] → tail = []) := by
  cases rest with
  | nil =>
    have last : q.reports.length = 1 := by rw [reports, List.length_singleton]
    rw [reportTaken_of_one last]
    exact ⟨_, setPending_sent _ _, fun some => absurd rfl some⟩
  | cons r' rest =>
    have more : q.reports.length ≠ 1 := by simp [reports]
    exact ⟨[], by rw [reportTaken_of_ne_one more, List.append_nil], fun _ => rfl⟩

/-- REPORT-WAITING goes with the last report (R179). -/
theorem reportTaken_reportWaiting {q : PortState} {r : Report} {rest : List Report} (reports : q.reports = r :: rest) :
    Event.reportWaiting.isIn q.reportTaken.pending = (Event.reportWaiting.isIn q.pending && decide (rest ≠ [])) := by
  cases rest with
  | nil =>
    have last : q.reports.length = 1 := by rw [reports, List.length_singleton]
    rw [reportTaken_of_one last]
    exact (isIn_removeFrom ..).trans (by simp)
  | cons r' rest =>
    have more : q.reports.length ≠ 1 := by simp [reports]
    rw [reportTaken_of_ne_one more, decide_eq_true (List.cons_ne_nil r' rest), Bool.and_true]

/-- A REPORT-READ with an empty list (R180). -/
theorem exec_reportRead_nil {s : State} {p : Port} (can : s.canTake p Kind.reportRead.byte []) (empty : (s.port p).reports = []) :
    exec (.reportRead p []) s = .next (((s.taken p).accept p .reportRead (flag1 (s.port p).displaced ++ [0#8, 0#8])).onPort p
      fun q => { q with displaced := false }) := by
  rw [exec_reportRead can, readReport_nil empty, State.answers]
  refine congrArg _ (onPort_congr ?_)
  have replied : (((s.taken p).accept p .reportRead (flag1 (s.port p).displaced ++ [0#8, 0#8])).port p).reports = [] := by
    rw [taken_accept_port, replied_reports, empty]
  rw [reportTaken_of_ne_one (by simp [replied]), replied, List.tail_nil, ← replied]

/-! ### The bytes of a completion report (R175) -/

theorem natAt_of_drop {l tail : List Byte} {i j k : Nat} (behind : l.drop i = tail) (place : j = i + k) : natAt l j = natAt tail k := by
  rw [place, ← behind, natAt_drop]

theorem nat2At_of_drop {l tail : List Byte} {i j k : Nat} (behind : l.drop i = tail) (place : j = i + k) : nat2At l j = nat2At tail k := by
  rw [place, ← behind, nat2At_drop]

theorem nat4At_of_drop {l tail : List Byte} {i j k : Nat} (behind : l.drop i = tail) (place : j = i + k) : nat4At l j = nat4At tail k := by
  rw [nat4At, nat4At, nat2At_of_drop behind place, nat2At_of_drop behind (show j + 2 = i + (k + 2) by omega)]

theorem length_flatMap_of_size {α : Type} {f : α → List Byte} {m : Nat} (size : ∀ x, (f x).length = m) (l : List α) :
    (l.flatMap f).length = m * l.length := by
  simp [List.length_flatMap, size, Nat.mul_comm]

/-- In a list of bytes with `m` for each entry, an entry stands behind those before it. -/
theorem drop_flatMap_of_size {α : Type} {f : α → List Byte} {m : Nat} (size : ∀ x, (f x).length = m) {l : List α} {i : Nat} {x : α}
    (entry : l[i]? = some x) : (l.flatMap f).drop (m * i) = f x ++ (l.drop (i + 1)).flatMap f := by
  obtain ⟨inside, here⟩ := List.getElem?_eq_some_iff.mp entry
  have front : ((l.take i).flatMap f).length = m * i := by
    rw [length_flatMap_of_size size, List.length_take_of_le inside.le]
  calc (l.flatMap f).drop (m * i)
    _ = ((l.take i).flatMap f ++ (l.drop i).flatMap f).drop (m * i) := by rw [← List.flatMap_append, List.take_append_drop]
    _ = (l.drop i).flatMap f := by rw [← front, List.drop_left]
    _ = f x ++ (l.drop (i + 1)).flatMap f := by rw [List.drop_eq_getElem_cons inside, here, List.flatMap_cons]

/-- One counter value in a completion report: the counter and its value (R175). -/
def valueBytes (v : CounterNo × Nat) : List Byte := byte1 v.1.val ++ byte4 v.2

theorem length_valueBytes (v : CounterNo × Nat) : (valueBytes v).length = 5 := rfl

/-- What precedes the key in a completion report, and the key (R175). -/
def Completion.head (c : Completion) : List Byte :=
  byte1 0 ++ (byte2 c.job ++ (byte1 c.origin.val ++ (byte1 (c.key.getD []).length ++ c.key.getD [])))

/-- What stands between the key and the values (R175). -/
def Completion.counts (c : Completion) : List Byte :=
  byte1 c.form ++ (byte2 c.copy ++ (byte2 c.total ++ (byte1 c.outcome.number ++ byte1 c.values.length)))

/-- What follows the values (R175). -/
def Completion.marks (c : Completion) : List Byte :=
  byte1 c.pauses ++ (byte1 c.masked ++ (byte1 c.fallbacks ++ (byte1 c.truncations ++ (byte1 c.symbolErrors ++ (flag1 c.mismatch ++ [])))))

theorem completionBytes_eq (c : Completion) : c.bytes = c.head ++ (c.counts ++ (c.values.flatMap valueBytes ++ c.marks)) := by
  simp only [Completion.bytes, Completion.head, Completion.counts, Completion.marks, packText, packList, List.append_assoc, List.append_nil]
  rfl

theorem length_completionHead (c : Completion) : c.head.length = 5 + (c.key.getD []).length := by
  simp only [Completion.head, List.length_append, length_byte1, length_byte2]
  omega

theorem length_completionCounts (c : Completion) : c.counts.length = 7 := rfl

theorem length_completionMarks (c : Completion) : c.marks.length = 6 := by
  simp only [Completion.marks, List.length_append, length_byte1, length_flag1, List.length_nil]

theorem length_completionBytes (c : Completion) : c.bytes.length = 18 + (c.key.getD []).length + 5 * c.values.length := by
  simp only [completionBytes_eq, List.length_append, length_completionHead, length_completionCounts, length_completionMarks,
    length_flatMap_of_size length_valueBytes]
  omega

theorem drop_completionHead (c : Completion) :
    c.bytes.drop (5 + (c.key.getD []).length) = c.counts ++ (c.values.flatMap valueBytes ++ c.marks) := by
  rw [completionBytes_eq, ← length_completionHead, List.drop_left]

theorem drop_completionCounts (c : Completion) : c.bytes.drop (12 + (c.key.getD []).length) = c.values.flatMap valueBytes ++ c.marks := by
  rw [show 12 + (c.key.getD []).length = 5 + (c.key.getD []).length + c.counts.length by rw [length_completionCounts]; omega,
    ← List.drop_drop, drop_completionHead, List.drop_left]

theorem drop_completionValues (c : Completion) : c.bytes.drop (12 + (c.key.getD []).length + 5 * c.values.length) = c.marks := by
  rw [← List.drop_drop, drop_completionCounts, ← length_flatMap_of_size length_valueBytes, List.drop_left]

/-- A value and what follows it (R175). -/
theorem drop_completionValue (c : Completion) {i : Nat} {v : CounterNo × Nat} (entry : c.values[i]? = some v) :
    c.bytes.drop (12 + (c.key.getD []).length + 5 * i) =
      byte1 v.1.val ++ (byte4 v.2 ++ ((c.values.drop (i + 1)).flatMap valueBytes ++ c.marks)) := by
  have inside : 5 * i ≤ (c.values.flatMap valueBytes).length := by
    rw [length_flatMap_of_size length_valueBytes]
    exact Nat.mul_le_mul_left 5 (List.getElem?_eq_some_iff.mp entry).1.le
  rw [← List.drop_drop, drop_completionCounts, List.drop_append_of_le_length inside, drop_flatMap_of_size length_valueBytes entry,
    valueBytes]
  simp only [List.append_assoc]

/-- Up to the key: the mark of a completion report, the job, its origin, and the key (R175). -/
theorem completionBytes_head (c : Completion) : natAt c.bytes 0 = 0 ∧ (c.job < 65536 → nat2At c.bytes 1 = c.job) ∧
    natAt c.bytes 3 = c.origin.val ∧ ((c.key.getD []).length < 256 → natAt c.bytes 4 = (c.key.getD []).length) ∧
    sliceAt c.bytes 5 (c.key.getD []).length = c.key.getD [] := by
  have origin := c.origin.isLt
  rw [completionBytes_eq, Completion.head]
  simp only [List.append_assoc, nat2At_byte1_succ, natAt_byte1_succ, natAt_byte2_succ]
  exact ⟨rfl, fun job => nat2At_byte2 job _, natAt_byte1 (by omega) _, fun key => natAt_byte1 (by omega) _, List.take_left⟩

/-- The form, the copy, the total, the outcome, and how many values follow (R175). -/
theorem completionCounts_read (c : Completion) (rest : List Byte) : (c.form < 256 → natAt (c.counts ++ rest) 0 = c.form) ∧
    (c.copy < 65536 → nat2At (c.counts ++ rest) 1 = c.copy) ∧ (c.total < 65536 → nat2At (c.counts ++ rest) 3 = c.total) ∧
    natAt (c.counts ++ rest) 5 = c.outcome.number ∧ (c.values.length < 256 → natAt (c.counts ++ rest) 6 = c.values.length) := by
  have outcome : c.outcome.number ≤ 255 := by cases c.outcome <;> decide
  rw [Completion.counts]
  simp only [List.append_assoc, natAt_byte1_succ, natAt_byte2_succ, nat2At_byte1_succ, nat2At_byte2_succ]
  exact ⟨fun form => natAt_byte1 (by omega) _, fun copy => nat2At_byte2 copy _, fun total => nat2At_byte2 total _,
    natAt_byte1 outcome _, fun values => natAt_byte1 (by omega) _⟩

/-- Between the key and the values (R175). -/
theorem completionBytes_counts (c : Completion) : let k := (c.key.getD []).length
    (c.form < 256 → natAt c.bytes (5 + k) = c.form) ∧ (c.copy < 65536 → nat2At c.bytes (6 + k) = c.copy) ∧
    (c.total < 65536 → nat2At c.bytes (8 + k) = c.total) ∧ natAt c.bytes (10 + k) = c.outcome.number ∧
    (c.values.length < 256 → natAt c.bytes (11 + k) = c.values.length) := by
  intro k
  obtain ⟨form, copy, total, outcome, count⟩ := completionCounts_read c (c.values.flatMap valueBytes ++ c.marks)
  have behind := drop_completionHead c
  exact ⟨fun h => (natAt_of_drop behind (by omega)).trans (form h), fun h => (nat2At_of_drop behind (by omega)).trans (copy h),
    fun h => (nat2At_of_drop behind (by omega)).trans (total h), (natAt_of_drop behind (by omega)).trans outcome,
    fun h => (natAt_of_drop behind (by omega)).trans (count h)⟩

/-- Each value: its counter and the number drawn (R175). -/
theorem completionBytes_value (c : Completion) {i : Nat} {v : CounterNo × Nat} (entry : c.values[i]? = some v) :
    natAt c.bytes (12 + (c.key.getD []).length + 5 * i) = v.1.val ∧
    (v.2 < 4294967296 → nat4At c.bytes (13 + (c.key.getD []).length + 5 * i) = v.2) := by
  have counter := v.1.isLt
  have behind := drop_completionValue c entry
  refine ⟨(natAt_of_drop behind (k := 0) rfl).trans (natAt_byte1 (by omega) _), fun value => ?_⟩
  rw [nat4At_of_drop behind (k := 1) (by omega), nat4At_byte1_succ]
  exact nat4At_byte4 value _

/-- The five counts and the mismatch flag (R175). -/
theorem completionMarks_read (c : Completion) : (c.pauses < 256 → natAt c.marks 0 = c.pauses) ∧
    (c.masked < 256 → natAt c.marks 1 = c.masked) ∧ (c.fallbacks < 256 → natAt c.marks 2 = c.fallbacks) ∧
    (c.truncations < 256 → natAt c.marks 3 = c.truncations) ∧ (c.symbolErrors < 256 → natAt c.marks 4 = c.symbolErrors) ∧
    natAt c.marks 5 = c.mismatch.toNat := by
  rw [Completion.marks]
  simp only [natAt_byte1_succ]
  exact ⟨fun h => natAt_byte1 (by omega) _, fun h => natAt_byte1 (by omega) _, fun h => natAt_byte1 (by omega) _,
    fun h => natAt_byte1 (by omega) _, fun h => natAt_byte1 (by omega) _, natAt_flag1 ..⟩

/-- After the values (R175). -/
theorem completionBytes_marks (c : Completion) : let k := (c.key.getD []).length
    let n := 5 * c.values.length
    (c.pauses < 256 → natAt c.bytes (12 + k + n) = c.pauses) ∧ (c.masked < 256 → natAt c.bytes (13 + k + n) = c.masked) ∧
    (c.fallbacks < 256 → natAt c.bytes (14 + k + n) = c.fallbacks) ∧
    (c.truncations < 256 → natAt c.bytes (15 + k + n) = c.truncations) ∧
    (c.symbolErrors < 256 → natAt c.bytes (16 + k + n) = c.symbolErrors) ∧ natAt c.bytes (17 + k + n) = c.mismatch.toNat := by
  intro k n
  obtain ⟨pauses, masked, fallbacks, truncations, symbolErrors, mismatch⟩ := completionMarks_read c
  have behind := drop_completionValues c
  exact ⟨fun h => (natAt_of_drop behind (by omega)).trans (pauses h), fun h => (natAt_of_drop behind (by omega)).trans (masked h),
    fun h => (natAt_of_drop behind (by omega)).trans (fallbacks h), fun h => (natAt_of_drop behind (by omega)).trans (truncations h),
    fun h => (natAt_of_drop behind (by omega)).trans (symbolErrors h), (natAt_of_drop behind (by omega)).trans mismatch⟩

/-! ### The bytes of a band report (R175) -/

theorem bandBytes_eq (b : BandReport) : b.bytes =
    byte1 1 ++ (byte2 b.job ++ (byte2 b.copy ++ (byte1 b.band ++ (byte2 b.burned ++ (byte2 b.check.toNat ++ []))))) := by
  simp only [BandReport.bytes, List.append_assoc, List.append_nil]

/-- Settles O37: a report placed; one read from a list that has one, and from an empty one; and the two reports read entry by entry. -/
theorem reportsArePlacedAndRead : Obligations.ReportsArePlacedAndRead := by
  refine ⟨fun q r few => ?_, fun s p r rest can reports => ?_, fun s p => exec_reportRead_nil, ?_, ?_⟩
  · exact ⟨(place_reports q r).trans (newest_concat_of_bounded few r), place_displaced few r, place_reportWaiting q r⟩
  · have port := answers_port_self s p .reportRead (s.port p).readReport PortState.reportTaken
    have replied := (replied_reports (s.port p) .reportRead (s.port p).readReport).trans reports
    obtain ⟨tail, sent, quiet⟩ := reportTaken_sent replied
    refine ⟨_, tail, exec_reportRead can, ?_, quiet, ?_, ?_, ?_, fun q other => answers_port_ne s other .., answers_frame ..⟩
    · rw [port, sent, replied_sent, readReport_cons reports, List.append_assoc]
      rfl
    · rw [port, reportTaken_reports, replied, List.tail_cons]
    · rw [port, reportTaken_displaced]
    · rw [port, reportTaken_reportWaiting replied, replied_pending]
  · intro c job key form copy total values value pauses masked fallbacks truncations symbolErrors d k n
    obtain ⟨kind, number, origin, keyLength, keyBytes⟩ := completionBytes_head c
    obtain ⟨formAt, copyAt, totalAt, outcome, count⟩ := completionBytes_counts c
    obtain ⟨pausesAt, maskedAt, fallbacksAt, truncationsAt, symbolErrorsAt, mismatch⟩ := completionBytes_marks c
    refine ⟨length_completionBytes c, kind, number job, origin, keyLength key, keyBytes, formAt form, copyAt copy, totalAt total, ?_,
      count values, fun i v entry => ?_, pausesAt pauses, maskedAt masked, fallbacksAt fallbacks, truncationsAt truncations,
      symbolErrorsAt symbolErrors, mismatch⟩
    · rw [outcome]
      cases c.outcome <;> rfl
    · obtain ⟨counter, drawn⟩ := completionBytes_value c entry
      exact ⟨counter, drawn (value v (List.mem_of_getElem? entry))⟩
  · intro b job copy band burned
    have check := b.check.isLt
    rw [bandBytes_eq]
    simp only [natAt_byte1_succ, natAt_byte2_succ, nat2At_byte1_succ, nat2At_byte2_succ]
    exact ⟨rfl, rfl, nat2At_byte2 job _, nat2At_byte2 copy _, natAt_byte1 (by omega) _, nat2At_byte2 burned _, nat2At_byte2 check _⟩

end Sys2Proof.Machine
end

section
/-! PROOFS. A completion report goes to its origin and to the watches that match (O38). -/

namespace Sys2Proof.Machine

/-! ### The filters of a watch (R181) -/

/-- A filter matches a key that has, at every cared position, the pattern's character (R181). -/
theorem filter_matches_iff (f : Filter) (key : Text) :
    f.matches key = true ↔ ∀ k, k < 5 → f.care.getLsbD k = true → ∃ c, key[k]? = some c ∧ f.pattern[k]? = some c := by
  have place (k : Nat) : (k < key.length ∧ key[k]? = f.pattern[k]?) ↔ ∃ c, key[k]? = some c ∧ f.pattern[k]? = some c := by
    constructor
    · rintro ⟨inKey, same⟩
      exact ⟨key[k], List.getElem?_eq_getElem inKey, same ▸ List.getElem?_eq_getElem inKey⟩
    · rintro ⟨c, has, wanted⟩
      exact ⟨(List.getElem?_eq_some_iff.mp has).1, has.trans wanted.symm⟩
  simp only [Filter.matches, List.all_eq_true, List.mem_range, Bool.or_eq_true, Bool.not_eq_true', Bool.and_eq_true, decide_eq_true_eq,
    beq_iff_eq, place, ← Bool.not_eq_true, imp_iff_not_or]

/-- A watch wants a job with a key that the combined filters agree with (R181). -/
theorem wants_some_iff (t : PortSettings) (key : Text) :
    t.wants (some key) = true ↔ t.watch = true ∧ t.combine.apply (t.filter1.matches key) (t.filter2.matches key) = true :=
  Bool.and_eq_true_iff

/-- Where a completion report goes: its origin, and any other port whose watch wants it (R76, R181). -/
theorem placeCompletion_port (s : State) (c : Completion) (p : Port) : (s.placeCompletion c).port p =
    if p = c.origin ∨ (s.port p).settings.wants c.key = true then (s.port p).place (.completion c) else s.port p := by
  refine (foldl_placeAt_port (List.nodup_finRange 4) c s p).trans ?_
  simp only [List.mem_finRange, true_and, Bool.or_eq_true, decide_eq_true_eq]

/-- Settles O38: each port takes its turn once; the filters by how they are combined. -/
theorem reportsGoToTheWatchesThatMatch : Obligations.ReportsGoToTheWatchesThatMatch := by
  refine ⟨placeCompletion_port, fun _ => rfl, fun t key _ _ => ?_⟩
  intro agrees
  have agrees_iff (f : Filter) : f.matches key = true ↔ agrees f := filter_matches_iff f key
  rw [wants_some_iff, ← agrees_iff, ← agrees_iff]
  cases t.combine <;> simp [Combine.apply, imp_iff_not_or]

end Sys2Proof.Machine
end
